-- ==== Sys2Proof/Word.lean ====
section
/-! DEFINITION. The word types of the ZA940 and their plainest operations (spec/00_scope.md R1, R2). -/

namespace Sys2Proof

/-- A 64-bit register or memory word (R174). -/
abbrev Word := BitVec 64

/-- One byte of storage (R2). -/
abbrev Byte := BitVec 8

/-- One 32-bit lane of a vector register (R179). -/
abbrev Lane := BitVec 32

/-- A 7-bit register field (R154). -/
abbrev Reg := BitVec 7

/-- A field hi down to lo of a word, as an unsigned number (R1). -/
def fld (w : Word) (hi lo : Nat) : Nat := (w.toNat >>> lo) % 2 ^ (hi + 1 - lo)

/-- A number as a 64-bit word, modulo 2^64. -/
abbrev word (n : Nat) : Word := BitVec.ofNat 64 n

/-- One bit of a word as a truth value. -/
def bitOf (w : Word) (k : Nat) : Bool := w.getLsbD k

end Sys2Proof
end

