-- ==== Sys2Proof/Machine/Flags.lean ====
section
/-! DEFINITION. The computations that instructions share: integer operations at 64, 32 and 8 bits, comparisons,
saturation and bit counts (spec/12_isa_scalar.md R190 to R197, spec/15_isa_vector.md R238). The ZA940 has no flags
register: an operation's only condition results are values and the vector predicate. -/

namespace Sys2Proof.Machine

/-- A condition as a register value: 1 or 0 (R190). -/
def truth (b : Bool) : Word := if b then 1 else 0

/-- The high half of a product (R190). -/
def mulHigh (x y : Int) (w : Nat) : Int := x * y / 2 ^ w

/-- An integer as a word modulo 2^64. -/
def wordInt (i : Int) : Word := BitVec.ofInt 64 i

/-- R191: the quotient of a signed division. -/
def divS (s t : Word) : Word := if t = 0 then BitVec.allOnes 64 else wordInt (s.toInt.tdiv t.toInt)
/-- R191: the quotient of an unsigned division. -/
def divU (s t : Word) : Word := if t = 0 then BitVec.allOnes 64 else word (s.toNat / t.toNat)
/-- R191: the remainder of a signed division. -/
def remS (s t : Word) : Word := if t = 0 then s else wordInt (s.toInt.tmod t.toInt)
/-- R191: the remainder of an unsigned division. -/
def remU (s t : Word) : Word := if t = 0 then s else word (s.toNat % t.toNat)

/-- The shift amount t[5:0] (R190). -/
def amount (t : Word) : Nat := t.toNat % 64

/-- The number of leading zero bits of the low n bits of a word (R192). -/
def clzFrom (s : Word) : Nat → Nat
  | 0 => 0
  | n + 1 => if s.getLsbD n then 0 else 1 + clzFrom s n

/-- The number of zero bits below the lowest set bit, from bit k up with n bits left (R192). -/
def ctzFrom (s : Word) : Nat → Nat → Nat
  | 0, _ => 0
  | n + 1, k => if s.getLsbD k then 0 else 1 + ctzFrom s n (k + 1)

/-- The number of set bits among the low n (R192). -/
def popcFrom (s : Word) : Nat → Nat
  | 0 => 0
  | n + 1 => (s.getLsbD n).toNat + popcFrom s n

/-- The low n bits of a word in reverse order, as a number (R192). -/
def brevFrom (s : Word) : Nat → Nat
  | 0 => 0
  | n + 1 => (s.getLsbD n).toNat * 2 ^ (63 - n) + brevFrom s n

/-- The byte-reversed word (R192). -/
def bswap64 (s : Word) : Word :=
  (s.extractLsb' 0 8) ++ (s.extractLsb' 8 8) ++ (s.extractLsb' 16 8) ++ (s.extractLsb' 24 8) ++ (s.extractLsb' 32 8) ++
    (s.extractLsb' 40 8) ++ (s.extractLsb' 48 8) ++ (s.extractLsb' 56 8)

/-- R193: the fixed mix of two words. -/
def hash64 (a b : Word) : Word :=
  let h := a + b * 0x9E3779B97F4A7C15#64
  let h := (h ^^^ (h >>> 30)) * 0xBF58476D1CE4E5B9#64
  let h := (h ^^^ (h >>> 27)) * 0x94D049BB133111EB#64
  h ^^^ (h >>> 31)

/-- R197: a bit field extracted, zero-extended. -/
def bitField (s : Word) (p w : Nat) : Word := word (fld s (p + w - 1) p)

/-- R197: a bit field inserted. -/
def insertField (c s : Word) (p w : Nat) : Word :=
  let m := BitVec.ofNat 64 ((2 ^ w - 1) * 2 ^ p)
  (c &&& ~~~ m) ||| ((s <<< p) &&& m)

/-- R196: one 16-bit quarter of a word replaced. -/
def setQuarter (c : Word) (q : Nat) (v : BitVec 16) : Word := insertField c (v.setWidth 64) (16 * q) 16

/-- An integer clamped to a signed width (R238, R234). -/
def clampInt (w : Nat) (i : Int) : Int :=
  if i < -(2 ^ (w - 1) : Int) then -(2 ^ (w - 1) : Int) else if (2 ^ (w - 1) : Int) - 1 < i then (2 ^ (w - 1) : Int) - 1 else i

/-- A saturating signed sum of two fields (R238). -/
def satAdd {w : Nat} (x y : BitVec w) : BitVec w := BitVec.ofInt w (clampInt w (x.toInt + y.toInt))
/-- A saturating signed difference (R238). -/
def satSub {w : Nat} (x y : BitVec w) : BitVec w := BitVec.ofInt w (clampInt w (x.toInt - y.toInt))
/-- The signed minimum of two fields. -/
def minS {w : Nat} (x y : BitVec w) : BitVec w := if x.toInt ≤ y.toInt then x else y
/-- The signed maximum of two fields. -/
def maxS {w : Nat} (x y : BitVec w) : BitVec w := if x.toInt ≤ y.toInt then y else x
/-- The unsigned minimum of two fields. -/
def minU {w : Nat} (x y : BitVec w) : BitVec w := if x.toNat ≤ y.toNat then x else y
/-- The unsigned maximum of two fields. -/
def maxU {w : Nat} (x y : BitVec w) : BitVec w := if x.toNat ≤ y.toNat then y else x

/-- The four bytes of a lane. -/
def bytesOfLane (l : BitVec 32) : List (BitVec 8) := [l.extractLsb' 0 8, l.extractLsb' 8 8, l.extractLsb' 16 8, l.extractLsb' 24 8]

/-- A lane from its bytes, the first in the low place. -/
def laneOfBytes (bs : List (BitVec 8)) : BitVec 32 :=
  BitVec.ofNat 32 ((bs.zipIdx.foldl fun n b => n + b.1.toNat * 2 ^ (8 * b.2)) 0)

/-- A function of bytes applied to each byte of two lanes (R238). -/
def perByte (f : BitVec 8 → BitVec 8 → BitVec 8) (x y : BitVec 32) : BitVec 32 :=
  laneOfBytes (List.zipWith f (bytesOfLane x) (bytesOfLane y))

end Sys2Proof.Machine
end

