-- ==== Sys2Proof/Fields.lean ====
section
/-! DEFINITION. The fields of instructions, the plain data that travels between the agents of the ZA940,
and the events: the indivisible steps of the agents other than threads. -/

namespace Sys2Proof

/-- The scopes of R95, coded as in R162. -/
inductive Scope where
  | th | co | cl | di | pk | dm | sy
  deriving DecidableEq, Repr

/-- The ordering choices of an atomic (R163). -/
inductive AOrd where
  | plain | acq | rel | ar
  deriving DecidableEq, Repr

/-- The rounding modes of R228. -/
inductive Rm where
  | rne | rtz | rup | rdn
  deriving DecidableEq, Repr

/-- The kinds of segment of R17. -/
inductive Kind where
  | null | lane | core | clus | chip | glob | remc | dom
  deriving DecidableEq, Repr

/-- The atomic operations of R163. -/
inductive Aop where
  | add | and | or | xor | min | max | minu | maxu | swp | cas
  deriving DecidableEq, Repr

/-- Who made an access that travels through the networks (R120, R209, R62, R65, R220, R116). -/
inductive Agent where
  | load (slot : Nat)                               -- a load or atomic of a thread
  | journal (core : Nat) (entries : List Nat)       -- a drained store, with its journal entries
  | flush (core slot : Nat)                         -- a CFLUSH taking its buffer entry (R221)
  | fill (core : Nat) (clus : Bool) (sline : Nat)   -- a basin fill of a scratchpad line
  | writeBack (core bn : Nat) (clus : Bool) (sline : Nat)  -- a basin write-back message
  | prefetch (core : Nat)                           -- a PREF fill
  | fetch (slot : Nat)                              -- an instruction fetch (R23)
  | engine (cluster job unit : Nat)                 -- an engine write of one destination unit
  | host                                            -- the host, through its links
  | device (dev : Nat)                              -- another device of the domain
  | scheduler                                       -- an endpoint directory, at its overflow rings (R302)
  | tow (handle consumer : Nat)                     -- a due tow, which is served like a read (R138)
  deriving DecidableEq, Repr

/-- The number formats of a copy element (R275). -/
inductive Fmt where
  | raw | f32 | bf16 | e4m3 | e5m2 | i8 | i32
  deriving DecidableEq, Repr

/-- One reduction element of CP.RED (R276): destination bytes, and the source it adds. -/
structure RedElem where
  off : Nat            -- byte address of the element
  src : List Byte      -- the source element's bytes
  deriving DecidableEq, Repr

/-- A host request for a half of a line (R117). -/
inductive HostReq where
  | rdShared
  | rdOwn
  | wr (data : List Byte) (meta_ : Nat)             -- the state that the host states: 0, 1 or 2
  | inv
  deriving DecidableEq, Repr

/-- What an access does where it is performed. -/
inductive MemOp where
  | read (n : Nat)                                  -- n bytes at the address
  | write (bytes : List (Nat × Byte))               -- bytes at their addresses
  | atomic (op : Aop) (size : Nat) (p n : Word)     -- R214
  | reduce (sf df : Fmt) (rm : Rm) (scale : BitVec 32) (elems : List RedElem)  -- R276
  | flush                                           -- R221
  | host (half : Nat) (req : HostReq)               -- R119
  deriving DecidableEq, Repr

/-- An access in flight (R48): its number, who made it, its issuing core and partition, the space it
uses, the address within that space, and what it does. `phys` is the physical address once the
cluster port has translated it. -/
structure Access where
  tx : Nat
  agent : Agent
  core : Nat
  cid : Nat
  kind : Kind
  tgt : Nat                    -- REMC: target cluster, DOM: target device (R18); a directory's: the endpoint's owner
  addr : Nat                   -- the address formed by R20
  op : MemOp
  scope : Scope                -- an atomic's scope (R106)
  xlated : Bool                -- translated
  phys : Nat                   -- after translation
  home : Option Nat            -- the die of a die-homed page, none for package-spread (R29)
  cache : Nat                  -- 0 cached, 1 slice-only, 2 uncached (R367)
  common : Bool                -- R31
  tracked : Bool               -- host tracking (R28)
  handle : Option Nat          -- the towline that tags it (R133)
  m : Bool := false            -- issued in M (R55)
  va : Nat := 0                -- the basin address whose fill a remote touch is parked on (R62)
  bad : List Nat := []         -- the words of the line that a write-back brings poisoned (R389)
  deriving DecidableEq, Repr

/-- The answer of a load or atomic: its bytes, a refusal (R26: RK and WHO), or bytes with the offsets of those that
are poisoned (R391). -/
inductive Reply where
  | data (bytes : List Byte)
  | refused (rk who : Nat)
  | poison (bytes : List Byte) (bad : List Nat)
  deriving DecidableEq, Repr

/-- A spawn on its way to a core, fixed at SPAWN (R285). -/
structure SpawnReq where
  from_ : Nat                  -- the spawner's physical slot
  target : Nat                 -- core identifier
  swid : Nat
  pc : Word
  args : List Word             -- x0 to x3
  rsz : Nat
  lsz : Nat
  spt : Word
  segs : List (Word × Word)
  level : Nat                  -- 0 U, 1 S, 2 M
  tvec : Word
  flotilla : Nat
  deriving DecidableEq, Repr

/-- A message on its way to an endpoint directory (R304, R305). -/
structure Message where
  name : Nat                   -- the name as sent
  at_ : Nat                    -- the name of the entry it now goes to (stubs, R303)
  words : List Word
  swid : Nat
  core : Nat
  cid : Nat
  hop : Nat
  deriving DecidableEq, Repr

/-- A participant of a domain collective as another device states it (R281). -/
structure Peer where
  dev : Nat
  opc : Nat
  cnt : Nat
  fmt : Nat
  esz : Nat
  root : Nat
  vals : List (List Byte)      -- the peer's source elements
  deriving DecidableEq, Repr

/-- The modes a host link trains in (R378). -/
inductive LinkMode where
  | untrained | pcie | cxl
  deriving DecidableEq, Repr

/-- A signature of SLH-DSA-SHAKE-256s: 29,792 bytes (R395). -/
abbrev Signature := BitVec 238336

/-- What firmware gives link 1: its mode and the HDM ranges that its memory-only function exposes, each a first physical
address and a length (R379). -/
structure MemLink where
  mode : LinkMode
  hdm : List (Nat × Nat)
  deriving DecidableEq, Repr

/-- Where an error shows (R389, R391, R392): in a resident thread's register window or lane window, in a context record of
a core's thread-context cache, at a place of the explicit levels, in a core's L1, at a physical address in an L2, in a
memory-side cache, its stack or the CXL tier, or in a slice's tables. -/
inductive ErrAt where
  | window (slot byte : Nat)
  | lanes (slot byte : Nat)
  | context (core slot : Nat)
  | place (a : Nat)
  | l1 (core cid pa : Nat)
  | l2 (slice cid pa : Nat)
  | memory (pa : Nat)
  | tables (slice byte : Nat)
  deriving DecidableEq, Repr

/-- A line's bytes as a fill carries them, with the words of it that are poisoned (R389). -/
structure Carried where
  bytes : List Byte
  bad : List Nat
  deriving DecidableEq, Repr

/-- A firmware image with its security version and its signature (R395). -/
structure Firmware where
  bytes : List Byte
  version : BitVec 32
  signature : Signature
  deriving DecidableEq, Repr

/-- The ends of a message (R49): the node that sent it, and what it reaches: a core, slot, slice or cluster, as the
message says. -/
structure Hop where
  src : Nat
  dest : Nat
  deriving DecidableEq, Repr

/-- What reaches a thread for a load or an atomic, and whether it is marked HP (R115). -/
structure Arrived where
  reply : Reply
  hp : Bool
  deriving DecidableEq, Repr

/-- A host-done (R115): the node that sent it, who gets it and for which access. -/
structure Owed where
  src : Nat
  who : Agent
  tx : Nat
  deriving DecidableEq, Repr

/-- How a write-back's acknowledgement is marked: CF by a probe's dirty hit (R67), HP by a host copy (R115). -/
structure WbMarks where
  cf : Bool
  hp : Bool
  deriving DecidableEq, Repr

/-- What a unit of CP.RED left at its destination: whether an old element was poisoned, and the sums (R127, R391). -/
structure Reduced where
  poisoned : Bool
  sums : List Byte
  deriving DecidableEq, Repr

/-- An event that is in flight or comes from outside: the same steps as the event rows of the opcode
table, as data that the machine holds (R403: each is applied whole), and four of the machine's own. -/
inductive Event where
  | asyncTrapDelivery (slot : Nat)
  | operationResult (slot tx : Nat)
  | loadDataArrives (ends : Hop) (tx addr : Nat) (got : Arrived)
  | storeDrain (core : Nat)
  | storeAck (ends : Hop) (entries : List Nat) (code : Nat) (hp : Option Nat)
  | hostDone (owed : Owed)
  | requestAtHome (slice : Nat) (r : Access)
  | memoryReplyAtHome (slice cid line : Nat)
  | memoryControllerRequest (ctrl page cid : Nat)
  | hotnessIntervalEnd (ctrl : Nat)
  | mgHotctlWrite (value : Word)
  | l1FillLands (ends : Hop) (cid line : Nat) (install : Bool) (data : Carried)
  | invalidationProbe (core slice cid line : Nat)
  | probeAckAtHome (ends : Hop) (cid line : Nat) (dirtyHit : Bool)
  | towArrivesL1 (core slice cid line handle : Nat) (data : List Byte)
  | towArrivesBasin (core slice cid line handle : Nat) (data : List Byte)
  | towAck (ends : Hop) (cid line : Nat)
  | towUseReport (ends : Hop) (handle : Nat) (used : Bool)
  | stepMessage (slice handle : Nat) (slot : Option Nat)
  | remoteAccessArrival (r : Access)
  | domAccessArrival (dev scid : Nat) (r : Access)
  | domainTimeout (r : Access)
  | basinFillLands (ends : Hop) (clus : Bool) (sline : Nat) (reg : Bool) (data : Carried)
  | basinInvalidationProbe (core : Nat) (clus : Bool) (sline slice cid line mask : Nat) (fromBasin : Bool)
  | recallProbe (core : Nat) (clus : Bool) (sline slice cid line : Nat)
  | writeBackMessage (slice : Nat) (r : Access)
  | writeBackAck (ends : Hop) (tx bn : Nat) (clus : Bool) (sline : Nat) (reg : Bool) (marks : WbMarks) (refused : Bool)
  | hostMemrdShared (slice cid line half : Nat)
  | hostMemrdOwn (slice cid line half : Nat)
  | hostMemwr (slice cid line half : Nat) (data : List Byte) (meta_ : Nat)
  | hostMeminv (slice cid line half : Nat)
  | hostMemspecrd (slice cid line half : Nat)
  | backInvalidationResponse (slice cid line half : Nat) (shared : Bool)
  | walkComplete (cluster cid page : Nat)
  | faultQueueRetry (cid : Nat)
  | pinvAccept (cluster slot : Nat) (req arg : Word)
  | spawnArrival (q : SpawnReq)
  | slotGrant (core : Nat)
  | saveReported (slot : Nat)
  | forcedSave (core : Nat)
  | sleepLimit (slot : Nat)
  | recvtLimit (slot : Nat)
  | sluiceTimeout (core : Nat) (tree : Bool) (idx : Nat)
  | inboxDelivery (core : Nat) (entry : Word)
  | messageDelivery (m : Message)
  | tsTchgWrite (core : Nat) (value : Word)
  | tsJrelWrite (core : Nat) (value : Word)
  | tsEwakeWrite (value : Word)
  | mtCtx (cluster job : Nat)
  | mtTern (cluster job : Nat)
  | mtBooth (cluster job : Nat)
  | mtZero (cluster job : Nat)
  | mtDrain (cluster job : Nat)
  | cpCopy (cluster job : Nat)
  | cpFill (cluster job : Nat)
  | cpGath (cluster job : Nat)
  | cpScat (cluster job : Nat)
  | cpRed (cluster job : Nat)
  | cpAr (cluster job : Nat)
  | cpBcast (cluster job : Nat)
  | copyWriteAck (ends : Hop) (job unit : Nat) (ok hp : Bool) (red : Reduced)
  | ringStep (cluster job : Nat)
  | rowDrain (cluster job member : Nat)
  | rowHandlerStart (core : Nat)
  | jobPreemption (cluster job : Nat)
  | jobResume (cluster job : Nat)
  | collectiveMatch (cluster job : Nat) (peers : List Peer)
  | collectiveTimeout (cluster job : Nat)
  | snapshotRestore (die snap : Nat)
  | hostRingSlot (cid : Nat)
  | counterPoll (cid : Nat)
  | launchPlacement (cid : Nat)
  | flotillaRetirement (flotilla : Nat)
  | doorbellTail (vf : Nat) (tail : BitVec 32)
  | doorbellRerrClear (vf : Nat) (value : Word)
  | partCreate (desc : List Word)
  | partDestroy (cid : Nat)
  | vfBind (vf cid : Nat)
  | flushCommon
  | domainSet (arg : Word) (area : List Word)
  | vfEnableClear
  | functionLevelReset (vf : Nat)
  | vfEnableSet
  | attestationReport (nonce : BitVec 256)
  | aqueductPortFailure (port : Nat)
  | cxlResponseTimeout (slice cid line : Nat) (write : Bool)
  | marchTestComplete (str adr unit cid : Nat) (faulty repaired : Bool)
  | reset
  | calibrationComplete (controller mmode : Firmware) (calibration : List Byte) (link0 : LinkMode) (link1 : MemLink)
  | memoryInitComplete
  | zeroingComplete
  | powerLimit
  | thermalShutdown
  | chipScratchpadAccess (r : Access)
  | barWindowAccess (vf addr : Nat) (op : MemOp)
  | slotLending (slot : Nat)
  | jobAged (cluster job : Nat)                     -- of the machine's own: a queued job has waited its limit (R348)
  | headAged (core : Nat)                           -- so has the head of a spawn queue (R347)
  | failureWake (die : Nat)                         -- the waiters on failed entries wake (R331)
  | headCopy (name head : Nat)                      -- a ring's HEAD reaches its directory entry (R307)
  | errorFound (place : ErrAt) (bad : Bool)         -- a read finds an error, one that its code cannot correct (R389)
  | expanderRead (slice : Nat) (r : Access) (bytes : List Byte) (bad : List Nat)  -- an uncached read answered by an expander
  | expanderWrite (cid line : Nat) (halves : List Nat)  -- an expander has answered a write of granules of a line (R386)
  | errorHidden (place : ErrAt)                     -- a granule can be corrected no more, and no access has met it yet (R390)
  | wayRetired (str adr clu cid : Nat)              -- a cache way holds no line any more (R393)
  deriving DecidableEq, Repr

end Sys2Proof
end

