-- ==== Sys2Proof/Syntax.lean ====
section
/-! DEFINITION. The instructions and steps of the ZA940: one constructor of `Instr` for every row of
spec/opcode_table.json. -/

namespace Sys2Proof

/-- The instructions of the ZA940 (spec/10_encoding.md) and the indivisible steps of its other agents
(spec/95_what_each_step_holds.md): one constructor per row of the opcode table. -/
inductive Instr where
  /-- ADD: Adds two registers modulo 2^64. (R190) -/
  | add (d a b : Reg)
  /-- SUB: Subtracts the second source from the first modulo 2^64. (R190) -/
  | sub (d a b : Reg)
  /-- MUL: Writes bits [63:0] of the product. (R190) -/
  | mul (d a b : Reg)
  /-- MULH: Writes the high 64 bits of the signed product. (R190) -/
  | mulh (d a b : Reg)
  /-- MULHU: Writes the high 64 bits of the unsigned product. (R190) -/
  | mulhu (d a b : Reg)
  /-- MULHSU: Writes the high 64 bits of the signed-by-unsigned product. (R190) -/
  | mulhsu (d a b : Reg)
  /-- DIV: Signed division truncated toward zero, result after 16 cycles. (R191) -/
  | div (d a b : Reg)
  /-- DIVU: Unsigned division, result after 16 cycles. (R191) -/
  | divu (d a b : Reg)
  /-- REM: Signed remainder with the sign of the dividend. (R191) -/
  | rem (d a b : Reg)
  /-- REMU: Unsigned remainder. (R191) -/
  | remu (d a b : Reg)
  /-- AND: Bitwise AND of two registers. (R190) -/
  | and (d a b : Reg)
  /-- OR: Bitwise OR of two registers. (R190) -/
  | or (d a b : Reg)
  /-- XOR: Bitwise XOR of two registers. (R190) -/
  | xor (d a b : Reg)
  /-- ANDN: First source AND NOT second source. (R190) -/
  | andn (d a b : Reg)
  /-- ORN: First source OR NOT second source. (R190) -/
  | orn (d a b : Reg)
  /-- XNOR: NOT of the XOR of two registers. (R190) -/
  | xnor (d a b : Reg)
  /-- SHL: Shifts left by the low six bits of the second source. (R190) -/
  | shl (d a b : Reg)
  /-- SHR: Shifts right with zeros. (R190) -/
  | shr (d a b : Reg)
  /-- SRA: Shifts right with copies of bit 63. (R190) -/
  | sra (d a b : Reg)
  /-- ROL: Rotates left. (R190) -/
  | rol (d a b : Reg)
  /-- ROR: Rotates right. (R190) -/
  | ror (d a b : Reg)
  /-- MIN: Signed minimum. (R190) -/
  | min (d a b : Reg)
  /-- MAX: Signed maximum. (R190) -/
  | max (d a b : Reg)
  /-- MINU: Unsigned minimum. (R190) -/
  | minu (d a b : Reg)
  /-- MAXU: Unsigned maximum. (R190) -/
  | maxu (d a b : Reg)
  /-- SEQ: Sets 1 if the sources are equal. (R190) -/
  | seq (d a b : Reg)
  /-- SNE: Sets 1 if the sources differ. (R190) -/
  | sne (d a b : Reg)
  /-- SLT: Sets 1 if less, signed. (R190) -/
  | slt (d a b : Reg)
  /-- SLTU: Sets 1 if less, unsigned. (R190) -/
  | sltu (d a b : Reg)
  /-- SLE: Sets 1 if less or equal, signed. (R190) -/
  | sle (d a b : Reg)
  /-- SLEU: Sets 1 if less or equal, unsigned. (R190) -/
  | sleu (d a b : Reg)
  /-- SEL: Selects the first or second source by the condition in the destination register. (R190) -/
  | sel (d a b : Reg)
  /-- CLZ: Counts leading zero bits. (R192) -/
  | clz (d a : Reg)
  /-- CTZ: Counts trailing zero bits. (R192) -/
  | ctz (d a : Reg)
  /-- POPC: Counts set bits. (R192) -/
  | popc (d a : Reg)
  /-- BREV: Reverses the bit order. (R192) -/
  | brev (d a : Reg)
  /-- BSWAP: Reverses the byte order. (R192) -/
  | bswap (d a : Reg)
  /-- SEXTB: Sign-extends the low byte. (R192) -/
  | sextb (d a : Reg)
  /-- SEXTH: Sign-extends the low halfword. (R192) -/
  | sexth (d a : Reg)
  /-- SEXTW: Sign-extends the low word. (R192) -/
  | sextw (d a : Reg)
  /-- ZEXTB: Zero-extends the low byte. (R192) -/
  | zextb (d a : Reg)
  /-- ZEXTH: Zero-extends the low halfword. (R192) -/
  | zexth (d a : Reg)
  /-- ZEXTW: Zero-extends the low word. (R192) -/
  | zextw (d a : Reg)
  /-- HASH: Mixes two words into one by the fixed multiply-xorshift sequence. (R193) -/
  | hash (d a b : Reg)
  /-- ADDI: Adds a sign-extended 12-bit immediate. (R194) -/
  | addi (d a : Reg) (i : BitVec 12)
  /-- ANDI: ANDs with a sign-extended immediate. (R194) -/
  | andi (d a : Reg) (i : BitVec 12)
  /-- ORI: ORs with a sign-extended immediate. (R194) -/
  | ori (d a : Reg) (i : BitVec 12)
  /-- XORI: XORs with a sign-extended immediate. (R194) -/
  | xori (d a : Reg) (i : BitVec 12)
  /-- SLTI: Sets 1 if less than the immediate, signed. (R194) -/
  | slti (d a : Reg) (i : BitVec 12)
  /-- SLTIU: Sets 1 if less than the sign-extended immediate, unsigned. (R194) -/
  | sltiu (d a : Reg) (i : BitVec 12)
  /-- SHLI: Shifts left by a constant. (R195) -/
  | shli (d a : Reg) (s : BitVec 6)
  /-- SHRI: Shifts right with zeros by a constant. (R195) -/
  | shri (d a : Reg) (s : BitVec 6)
  /-- SRAI: Shifts right arithmetically by a constant. (R195) -/
  | srai (d a : Reg) (s : BitVec 6)
  /-- RORI: Rotates right by a constant. (R195) -/
  | rori (d a : Reg) (s : BitVec 6)
  /-- MOVI: Sets a register to a sign-extended 19-bit immediate. (R196) -/
  | movi (d : Reg) (i : BitVec 19)
  /-- MOVH: Replaces one 16-bit quarter of a register. (R196) -/
  | movh (d : Reg) (q : BitVec 2) (v : BitVec 16)
  /-- BFX: Extracts a bit field, zero-extended. (R197) -/
  | bfx (d a : Reg) (p : BitVec 6) (w : BitVec 5)
  /-- BFI: Inserts a bit field into the destination. (R197) -/
  | bfi (d a : Reg) (p : BitVec 6) (w : BitVec 5)
  /-- BEQ: Branches if the sources are equal. (R199) -/
  | beq (a b : Reg) (i : BitVec 12)
  /-- BNE: Branches if the sources differ. (R199) -/
  | bne (a b : Reg) (i : BitVec 12)
  /-- BLT: Branches if less, signed. (R199) -/
  | blt (a b : Reg) (i : BitVec 12)
  /-- BGE: Branches if greater or equal, signed. (R199) -/
  | bge (a b : Reg) (i : BitVec 12)
  /-- BLTU: Branches if less, unsigned. (R199) -/
  | bltu (a b : Reg) (i : BitVec 12)
  /-- BGEU: Branches if greater or equal, unsigned. (R199) -/
  | bgeu (a b : Reg) (i : BitVec 12)
  /-- JMP: Jumps by a 26-bit word offset. (R200) -/
  | jmp (i : BitVec 26)
  /-- CALL: Writes the link to a register and jumps. (R201) -/
  | call (d : Reg) (i : BitVec 19)
  /-- JR: Jumps to the address in a register. (R202) -/
  | jr (a : Reg)
  /-- CALLR: Calls through a register, writing the link. (R202) -/
  | callr (d a : Reg)
  /-- BDNZ: Decrements a register and branches if nonzero. (R203) -/
  | bdnz (d : Reg) (i : BitVec 19)
  /-- LDB: Loads a byte, sign-extended. (R207) -/
  | ldb (t a : Reg) (s : BitVec 3) (o : BitVec 9)
  /-- LDBU: Loads a byte, zero-extended. (R207) -/
  | ldbu (t a : Reg) (s : BitVec 3) (o : BitVec 9)
  /-- LDH: Loads a halfword, sign-extended. (R207) -/
  | ldh (t a : Reg) (s : BitVec 3) (o : BitVec 9)
  /-- LDHU: Loads a halfword, zero-extended. (R207) -/
  | ldhu (t a : Reg) (s : BitVec 3) (o : BitVec 9)
  /-- LDW: Loads a word, sign-extended. (R207) -/
  | ldw (t a : Reg) (s : BitVec 3) (o : BitVec 9)
  /-- LDWU: Loads a word, zero-extended. (R207) -/
  | ldwu (t a : Reg) (s : BitVec 3) (o : BitVec 9)
  /-- LDD: Loads a doubleword. (R207) -/
  | ldd (t a : Reg) (s : BitVec 3) (o : BitVec 9)
  /-- STB: Stores the low byte of a register. (R207) -/
  | stb (t a : Reg) (s : BitVec 3) (o : BitVec 9)
  /-- STH: Stores the low halfword. (R207) -/
  | sth (t a : Reg) (s : BitVec 3) (o : BitVec 9)
  /-- STW: Stores the low word. (R207) -/
  | stw (t a : Reg) (s : BitVec 3) (o : BitVec 9)
  /-- STD: Stores a doubleword. (R207) -/
  | std (t a : Reg) (s : BitVec 3) (o : BitVec 9)
  /-- LDQW: Queue load of a word into the load-data queue. (R212) -/
  | ldqw (a : Reg) (s : BitVec 3) (o : BitVec 9)
  /-- LDQD: Queue load of a doubleword into the load-data queue. (R212) -/
  | ldqd (a : Reg) (s : BitVec 3) (o : BitVec 9)
  /-- STQW: Appends a word store address to the unpaired addresses. (R212) -/
  | stqw (a : Reg) (s : BitVec 3) (o : BitVec 9)
  /-- STQD: Appends a doubleword store address to the unpaired addresses. (R212) -/
  | stqd (a : Reg) (s : BitVec 3) (o : BitVec 9)
  /-- LDA: Load-acquire of a given scope. (R213) -/
  | lda (t a : Reg) (s : BitVec 3) (z : Bool) (c : Scope) (k : BitVec 3)
  /-- STL: Store-release of a given scope. (R213) -/
  | stl (t a : Reg) (s : BitVec 3) (z : Bool) (c : Scope) (k : BitVec 3)
  /-- FENCE: Fence of a given scope. (R213) -/
  | fence (c : Scope)
  /-- AADD: Atomic add returning the old value. (R214) -/
  | aadd (d a : Reg) (z : Bool) (c : Scope) (r : AOrd) (g : BitVec 2)
  /-- AAND: Atomic AND. (R214) -/
  | aand (d a : Reg) (z : Bool) (c : Scope) (r : AOrd) (g : BitVec 2)
  /-- AOR: Atomic OR. (R214) -/
  | aor (d a : Reg) (z : Bool) (c : Scope) (r : AOrd) (g : BitVec 2)
  /-- AXOR: Atomic XOR. (R214) -/
  | axor (d a : Reg) (z : Bool) (c : Scope) (r : AOrd) (g : BitVec 2)
  /-- AMIN: Atomic signed minimum. (R214) -/
  | amin (d a : Reg) (z : Bool) (c : Scope) (r : AOrd) (g : BitVec 2)
  /-- AMAX: Atomic signed maximum. (R214) -/
  | amax (d a : Reg) (z : Bool) (c : Scope) (r : AOrd) (g : BitVec 2)
  /-- AMINU: Atomic unsigned minimum. (R214) -/
  | aminu (d a : Reg) (z : Bool) (c : Scope) (r : AOrd) (g : BitVec 2)
  /-- AMAXU: Atomic unsigned maximum. (R214) -/
  | amaxu (d a : Reg) (z : Bool) (c : Scope) (r : AOrd) (g : BitVec 2)
  /-- ASWP: Atomic swap. (R214) -/
  | aswp (d a : Reg) (z : Bool) (c : Scope) (r : AOrd) (g : BitVec 2)
  /-- ACAS: Atomic compare-and-swap with expected and new values in a register pair. (R214) -/
  | acas (d a : Reg) (z : Bool) (c : Scope) (r : AOrd) (g : BitVec 2)
  /-- STRM: Binds a read stream to a stream register. (R217) -/
  | strm (d a b : Reg) (s : BitVec 3)
  /-- STRX: Binds a write stream to a stream register. (R217) -/
  | strx (d a b : Reg) (s : BitVec 3)
  /-- STRQ: Binds an arrival stream to a copy job's destination. (R218) -/
  | strq (d b : Reg)
  /-- PREF: Prefetches a line by hint without waiting or trapping. (R220) -/
  | pref (s : BitVec 3) (a : Reg) (h : BitVec 2)
  /-- CFLUSH: Flushes a global line to memory or writes back a basin line. (R221) -/
  | cflush (s : BitVec 3) (a : Reg)
  /-- CINV: Drops the core's L1 copy or a basin line's clean words. (R222) -/
  | cinv (s : BitVec 3) (a : Reg)
  /-- BSNMAP: Maps a basin between scratchpad and global ranges. (R72) -/
  | bsnmap (d a b : Reg)
  /-- BSNSYNC: Writes back the dirty words of selected basins. (R73) -/
  | bsnsync (d a : Reg)
  /-- BSNDROP_WB: Drops a basin after writing it back. (R74) -/
  | bsndropWb (d a : Reg)
  /-- BSNDROP_NW: Drops a basin without writing it back. (R74) -/
  | bsndropNw (d a : Reg)
  /-- BSNQRY: Returns a basin's status word and optionally clears its flags. (R75) -/
  | bsnqry (d a : Reg)
  /-- TWREC_NEW: Allocates a towline descriptor and starts recording. (R149) -/
  | twrecNew (d a b : Reg)
  /-- TWREC_RERECORD: Re-records an allocated towline from a new block. (R145) -/
  | twrecRerecord (d a b : Reg)
  /-- TWSTEP: Closes the towline's current step and opens the next. (R150) -/
  | twstep (d a : Reg)
  /-- TWEND: Ends a towline, freeing its records and unloading its ranges. (R150) -/
  | twend (d a : Reg)
  /-- TWSTAT: Reads a towline's status or counters. (R151) -/
  | twstat (d a : Reg)
  /-- TWDROP: Frees a towline descriptor. (R150) -/
  | twdrop (d a : Reg)
  /-- VADD_I32: Per-lane INT32 add, wrapping. (R238) -/
  | vaddI32 (d a b : Reg) (p : Bool)
  /-- VSUB_I32: Per-lane INT32 subtract. (R238) -/
  | vsubI32 (d a b : Reg) (p : Bool)
  /-- VMUL_I32: Per-lane low 32 bits of the product. (R238) -/
  | vmulI32 (d a b : Reg) (p : Bool)
  /-- VMULH_I32: Per-lane high 32 bits of the signed product. (R238) -/
  | vmulhI32 (d a b : Reg) (p : Bool)
  /-- VMIN_I32: Per-lane signed minimum. (R238) -/
  | vminI32 (d a b : Reg) (p : Bool)
  /-- VMAX_I32: Per-lane signed maximum. (R238) -/
  | vmaxI32 (d a b : Reg) (p : Bool)
  /-- VMINU_I32: Per-lane unsigned minimum. (R238) -/
  | vminuI32 (d a b : Reg) (p : Bool)
  /-- VMAXU_I32: Per-lane unsigned maximum. (R238) -/
  | vmaxuI32 (d a b : Reg) (p : Bool)
  /-- VAND_I32: Per-lane AND. (R238) -/
  | vandI32 (d a b : Reg) (p : Bool)
  /-- VOR_I32: Per-lane OR. (R238) -/
  | vorI32 (d a b : Reg) (p : Bool)
  /-- VXOR_I32: Per-lane XOR. (R238) -/
  | vxorI32 (d a b : Reg) (p : Bool)
  /-- VSHL_I32: Per-lane shift left. (R238) -/
  | vshlI32 (d a b : Reg) (p : Bool)
  /-- VSHR_I32: Per-lane logical shift right. (R238) -/
  | vshrI32 (d a b : Reg) (p : Bool)
  /-- VSRA_I32: Per-lane arithmetic shift right. (R238) -/
  | vsraI32 (d a b : Reg) (p : Bool)
  /-- VADDS_I32: Per-lane saturating signed add. (R238) -/
  | vaddsI32 (d a b : Reg) (p : Bool)
  /-- VSUBS_I32: Per-lane saturating signed subtract. (R238) -/
  | vsubsI32 (d a b : Reg) (p : Bool)
  /-- VADD_I8X4: Per-byte wrapping add. (R238) -/
  | vaddI8x4 (d a b : Reg) (p : Bool)
  /-- VSUB_I8X4: Per-byte wrapping subtract. (R238) -/
  | vsubI8x4 (d a b : Reg) (p : Bool)
  /-- VADDS_I8X4: Per-byte saturating add. (R238) -/
  | vaddsI8x4 (d a b : Reg) (p : Bool)
  /-- VSUBS_I8X4: Per-byte saturating subtract. (R238) -/
  | vsubsI8x4 (d a b : Reg) (p : Bool)
  /-- VMIN_I8X4: Per-byte signed minimum. (R238) -/
  | vminI8x4 (d a b : Reg) (p : Bool)
  /-- VMAX_I8X4: Per-byte signed maximum. (R238) -/
  | vmaxI8x4 (d a b : Reg) (p : Bool)
  /-- VMINU_I8X4: Per-byte unsigned minimum. (R238) -/
  | vminuI8x4 (d a b : Reg) (p : Bool)
  /-- VMAXU_I8X4: Per-byte unsigned maximum. (R238) -/
  | vmaxuI8x4 (d a b : Reg) (p : Bool)
  /-- VDOT4: Accumulates a signed four-byte dot product into the lane. (R238) -/
  | vdot4 (d a b : Reg) (p : Bool)
  /-- VDOT4SU: Accumulates a signed-by-unsigned four-byte dot product. (R238) -/
  | vdot4su (d a b : Reg) (p : Bool)
  /-- VABSD_I8X4: Per-byte absolute difference. (R238) -/
  | vabsdI8x4 (d a b : Reg) (p : Bool)
  /-- VAVG_I8X4: Per-byte rounded signed average. (R238) -/
  | vavgI8x4 (d a b : Reg) (p : Bool)
  /-- VADD_BF16X2: Per-element BF16 add. (R240) -/
  | vaddBf16x2 (d a b : Reg) (p : Bool)
  /-- VSUB_BF16X2: Per-element BF16 subtract. (R240) -/
  | vsubBf16x2 (d a b : Reg) (p : Bool)
  /-- VMUL_BF16X2: Per-element BF16 multiply. (R240) -/
  | vmulBf16x2 (d a b : Reg) (p : Bool)
  /-- VFMA_BF16X2: Per-element BF16 fused multiply-add. (R240) -/
  | vfmaBf16x2 (d a b : Reg) (p : Bool)
  /-- VMIN_BF16X2: Per-element BF16 minimum. (R240) -/
  | vminBf16x2 (d a b : Reg) (p : Bool)
  /-- VMAX_BF16X2: Per-element BF16 maximum. (R240) -/
  | vmaxBf16x2 (d a b : Reg) (p : Bool)
  /-- VDOT2: Accumulates a two-element BF16 dot product into an FP32 lane. (R240) -/
  | vdot2 (d a b : Reg) (p : Bool)
  /-- VADD_F32: Per-lane FP32 add. (R241) -/
  | vaddF32 (d a b : Reg) (p : Bool)
  /-- VSUB_F32: Per-lane FP32 subtract. (R241) -/
  | vsubF32 (d a b : Reg) (p : Bool)
  /-- VMUL_F32: Per-lane FP32 multiply. (R241) -/
  | vmulF32 (d a b : Reg) (p : Bool)
  /-- VFMA_F32: Per-lane FP32 fused multiply-add. (R241) -/
  | vfmaF32 (d a b : Reg) (p : Bool)
  /-- VFMS_F32: Per-lane FP32 fused multiply-subtract. (R241) -/
  | vfmsF32 (d a b : Reg) (p : Bool)
  /-- VMIN_F32: Per-lane FP32 minimum. (R241) -/
  | vminF32 (d a b : Reg) (p : Bool)
  /-- VMAX_F32: Per-lane FP32 maximum. (R241) -/
  | vmaxF32 (d a b : Reg) (p : Bool)
  /-- VABS_F32: Per-lane FP32 absolute value. (R241) -/
  | vabsF32 (d a : Reg) (p : Bool)
  /-- VNEG_F32: Per-lane FP32 negation. (R241) -/
  | vnegF32 (d a : Reg) (p : Bool)
  /-- FRCPA: Per-lane truncated reciprocal to 12 significant bits. (R242) -/
  | frcpa (d a : Reg) (p : Bool)
  /-- FRSQA: Per-lane truncated reciprocal square root. (R242) -/
  | frsqa (d a : Reg) (p : Bool)
  /-- FEXP2A: Per-lane truncated power of two. (R242) -/
  | fexp2a (d a : Reg) (p : Bool)
  /-- VCVT_F32_I32: Converts INT32 lanes to FP32. (R243) -/
  | vcvtF32I32 (d a : Reg) (r : Rm) (p : Bool)
  /-- VCVT_I32_F32: Converts FP32 lanes to INT32, clamped. (R243) -/
  | vcvtI32F32 (d a : Reg) (r : Rm) (p : Bool)
  /-- VCVT_F32_BF16: Widens a BF16 half to FP32. (R243) -/
  | vcvtF32Bf16 (d a : Reg) (h : BitVec 1) (p : Bool)
  /-- VCVT_BF16_F32: Narrows FP32 into a BF16 half of the lane. (R243) -/
  | vcvtBf16F32 (d a : Reg) (h : BitVec 1) (r : Rm) (p : Bool)
  /-- VCVT_F32_E4M3: Widens an E4M3 byte to FP32. (R243) -/
  | vcvtF32E4m3 (d a : Reg) (s : BitVec 2) (p : Bool)
  /-- VCVT_F32_E5M2: Widens an E5M2 byte to FP32. (R243) -/
  | vcvtF32E5m2 (d a : Reg) (s : BitVec 2) (p : Bool)
  /-- VCVT_E4M3_F32: Narrows FP32 into an E4M3 byte, saturating. (R243) -/
  | vcvtE4m3F32 (d a : Reg) (s : BitVec 2) (r : Rm) (p : Bool)
  /-- VCVT_E5M2_F32: Narrows FP32 into an E5M2 byte, saturating. (R243) -/
  | vcvtE5m2F32 (d a : Reg) (s : BitVec 2) (r : Rm) (p : Bool)
  /-- VCVT_F32_I8: Widens an INT8 byte to FP32. (R243) -/
  | vcvtF32I8 (d a : Reg) (s : BitVec 2) (p : Bool)
  /-- VCVT_I8_F32: Narrows FP32 into an INT8 byte, clamped. (R243) -/
  | vcvtI8F32 (d a : Reg) (s : BitVec 2) (r : Rm) (p : Bool)
  /-- VLD: Loads 16 consecutive words into a vector register. (R245) -/
  | vld (d a : Reg) (s : BitVec 3) (p : Bool)
  /-- VST: Stores 16 consecutive words from a vector register. (R245) -/
  | vst (d a : Reg) (s : BitVec 3) (p : Bool)
  /-- VLDS: Loads 16 words spaced by a scalar stride. (R244) -/
  | vlds (d a : Reg) (s : BitVec 3) (x : BitVec 4) (p : Bool)
  /-- VGATH: Gathers one word per lane by an index vector. (R244) -/
  | vgath (d a : Reg) (s : BitVec 3) (x : BitVec 4) (p : Bool)
  /-- VSCAT: Scatters one word per lane by an index vector. (R244) -/
  | vscat (d a : Reg) (s : BitVec 3) (x : BitVec 4) (p : Bool)
  /-- VBCAST: Broadcasts a scalar word to every active lane. (R247) -/
  | vbcast (d a : Reg) (p : Bool)
  /-- VEXTR: Extracts one lane, sign-extended, into a scalar register. (R247) -/
  | vextr (d a : Reg) (l : BitVec 4)
  /-- VINS: Inserts a scalar word into one lane. (R247) -/
  | vins (d a : Reg) (l : BitVec 4) (p : Bool)
  /-- VPERM: Permutes lanes by an index vector. (R247) -/
  | vperm (d a b : Reg) (p : Bool)
  /-- VROT: Rotates lanes by a constant. (R247) -/
  | vrot (d a : Reg) (k : BitVec 4) (p : Bool)
  /-- VREDADD_I32: Tree-reduces lanes by INT32 addition into a scalar. (R248) -/
  | vredaddI32 (d a : Reg) (p : Bool)
  /-- VREDADD_F32: Tree-reduces lanes by FP32 addition into a scalar. (R248) -/
  | vredaddF32 (d a : Reg) (p : Bool)
  /-- VREDMAX_I32: Tree-reduces lanes by signed maximum. (R248) -/
  | vredmaxI32 (d a : Reg) (p : Bool)
  /-- VREDMAX_F32: Tree-reduces lanes by FP32 maximum. (R248) -/
  | vredmaxF32 (d a : Reg) (p : Bool)
  /-- VSCAN_I32: Inclusive INT32 prefix sum over active lanes. (R248) -/
  | vscanI32 (d a : Reg) (p : Bool)
  /-- VSCAN_F32: Inclusive FP32 prefix sum over active lanes. (R248) -/
  | vscanF32 (d a : Reg) (p : Bool)
  /-- VCMPEQ_I32: Sets the predicate where INT32 lanes are equal. (R249) -/
  | vcmpeqI32 (a b : Reg) (p : Bool)
  /-- VCMPLT_I32: Sets the predicate where lanes are less, signed. (R249) -/
  | vcmpltI32 (a b : Reg) (p : Bool)
  /-- VCMPLTU_I32: Sets the predicate where lanes are less, unsigned. (R249) -/
  | vcmpltuI32 (a b : Reg) (p : Bool)
  /-- VCMPLE_I32: Sets the predicate where lanes are less or equal, signed. (R249) -/
  | vcmpleI32 (a b : Reg) (p : Bool)
  /-- VCMPEQ_F32: Sets the predicate where FP32 lanes are equal. (R249) -/
  | vcmpeqF32 (a b : Reg) (p : Bool)
  /-- VCMPLT_F32: Sets the predicate where FP32 lanes are less. (R249) -/
  | vcmpltF32 (a b : Reg) (p : Bool)
  /-- VCMPLE_F32: Sets the predicate where FP32 lanes are less or equal. (R249) -/
  | vcmpleF32 (a b : Reg) (p : Bool)
  /-- VCMPUN_F32: Sets the predicate where either FP32 input is NaN. (R249) -/
  | vcmpunF32 (a b : Reg) (p : Bool)
  /-- VSEL: Selects each lane from one of two sources by the predicate. (R250) -/
  | vsel (d a b : Reg)
  /-- VPMOV_TO_X: Copies the predicate into a scalar register. (R250) -/
  | vpmovToX (d : Reg)
  /-- VPMOV_TO_VP: Loads the predicate from a scalar register. (R250) -/
  | vpmovToVp (a : Reg)
  /-- JSUB: Releases at cluster scope and queues an engine command as a job. (R261) -/
  | jsub (d a : Reg)
  /-- JPOLL: Returns a job's status word without acquiring. (R263) -/
  | jpoll (d a : Reg)
  /-- JWAIT: Waits for a job's report, removes it and acquires the job. (R263) -/
  | jwait (d a : Reg)
  /-- JCANCEL: Cancels a job according to its state. (R264) -/
  | jcancel (d a : Reg)
  /-- MGANG: Joins the core to a gang job and reserves handler slots. (R265) -/
  | mgang (d a : Reg)
  /-- RDONE: Ends a row handler after a cluster-scope release and frees its drain slot. (R128) -/
  | rdone
  /-- SPAWN: Starts, queues or refuses a child thread on a named core. (R284) -/
  | spawn (d a b : Reg)
  /-- EXIT: Ends the thread, leaving groups and failing its frames. (R287) -/
  | exit
  /-- YIELD: Takes a turn and starts a pending save cooperatively. (R288) -/
  | yield
  /-- SLEEP: Consumes the wake bit or waits for a wake or a cycle limit. (R289) -/
  | sleep (a : Reg)
  /-- WAKE_SLOT: Wakes the thread in a physical slot of the partition. (R290) -/
  | wakeSlot (d a : Reg)
  /-- WAKE_SWID: Wakes every thread bearing a software identifier. (R290) -/
  | wakeSwid (d a : Reg)
  /-- WAKE_PARKED: Retries every parked thread bearing a software identifier. (R357) -/
  | wakeParked (d a : Reg)
  /-- JOIN: Makes the thread a member of a group. (R293) -/
  | join (d a : Reg)
  /-- LEAVE: Removes the thread from a group, possibly releasing its episode. (R294) -/
  | leave (d a : Reg)
  /-- GBAR: Arrives at a group barrier and waits for its release. (R295) -/
  | gbar (d a : Reg)
  /-- GCNT: Reads a group record's counts. (R296) -/
  | gcnt (d a : Reg)
  /-- SLUICE: Counts an arrival at a cluster or tree sluice and waits for release. (R298) -/
  | sluice (d a : Reg)
  /-- TID: Returns the thread's software identifier and physical slot. (R291) -/
  | tid (d : Reg)
  /-- FLAUNCH: Reads a launch descriptor and submits it to a launch queue. (R292) -/
  | flaunch (d a : Reg)
  /-- SEND: Releases at package scope and enqueues a message of n words. (R304) -/
  | send (d a b : Reg) (n : BitVec 2)
  /-- RECV: Waits for a message on an endpoint and returns its slot offset. (R306) -/
  | recv (d a : Reg)
  /-- RECVT: Waits for a message with a cycle limit. (R306) -/
  | recvt (d a b : Reg)
  /-- RACK: Acknowledges the head message of a ring. (R307) -/
  | rack (d a : Reg)
  /-- EPNEW: Creates an endpoint from an endpoint block. (R308) -/
  | epnew (d a : Reg)
  /-- EPFREE: Frees the directory entry a name holds. (R310) -/
  | epfree (d a : Reg)
  /-- EPMOVE: Rebinds an endpoint to the issuing thread and new rings. (R309) -/
  | epmove (d a b : Reg)
  /-- TCALL: Looks up a tabled call, producing on a miss. (R321) -/
  | tcall (d a b : Reg) (n : BitVec 2)
  /-- TANS: Appends an answer to the innermost frame's entry. (R322) -/
  | tans (d a : Reg) (n : BitVec 2)
  /-- TRET: Ends the innermost producer frame. (R323) -/
  | tret
  /-- TNEXT: Advances a cursor, waiting or forking when exhausted. (R325) -/
  | tnext (d a : Reg)
  /-- TERR: Fails the innermost frame's group and ends the frame. (R324) -/
  | terr
  /-- TREL: Releases a cursor. (R327) -/
  | trel (a : Reg)
  /-- TLOOK: Looks up a tabled call without producing. (R321) -/
  | tlook (d a b : Reg) (n : BitVec 2)
  /-- TCTL_STAT: Returns answer-table statistics for the partition. (R328) -/
  | tctlStat (d a b : Reg)
  /-- TCTL_FLUSH_CALLEE: Frees unpinned complete entries of one callee. (R328) -/
  | tctlFlushCallee (d a b : Reg)
  /-- TCTL_FLUSH_CID: Fails or frees every answer-table entry of a CID on all dies. (R328) -/
  | tctlFlushCid (d a b : Reg)
  /-- MFS: Reads a system register. (R355) -/
  | mfs (d : Reg) (k : BitVec 14)
  /-- MTS: Writes a system register that has no behaviour of its own. (R354) -/
  | mts (d : Reg) (k : BitVec 14)
  /-- TRAP: Takes the exact trap SOFTWARE with a code. (R355) -/
  | trap (k : BitVec 14)
  /-- ERET: Returns from a handler to the saved level and address. (R355) -/
  | eret
  /-- BRK: Takes the exact trap BREAKPOINT with a code. (R355) -/
  | brk (k : BitVec 14)
  /-- SEGLD: Loads a checked segment descriptor into a segment register. (R362) -/
  | segld (s : BitVec 3) (a : Reg)
  /-- SEGRD: Reads a segment register's descriptor. (R362) -/
  | segrd (d : Reg) (s : BitVec 3)
  /-- PINV: Invalidates translations at every TLB and walk cache. (R362) -/
  | pinv (d a b : Reg)
  /-- ASYNC_TRAP_DELIVERY: A pending asynchronous trap is taken before the thread's next instruction. (R353) -/
  | asyncTrapDelivery (slot : Nat)
  /-- OPERATION_RESULT: A delayed division or vector result reaches its destination. (R182) -/
  | operationResult (slot tx : Nat)
  /-- LOAD_DATA_ARRIVES: A load, atomic or queue-load value, or its refusal, arrives at the thread. (R182) -/
  | loadDataArrives (ends : Hop) (tx addr : Nat) (got : Arrived)
  /-- STORE_DRAIN: The store buffer head drains into a journal entry and towards its home. (R87) -/
  | storeDrain (core : Nat)
  /-- STORE_ACK: A store acknowledgement or refusal reaches the core's journal. (R109) -/
  | storeAck (ends : Hop) (entries : List Nat) (code : Nat) (hp : Option Nat)
  /-- HOST_DONE: A host-done reply lowers the thread's host-pending count. (R115) -/
  | hostDone (owed : Owed)
  /-- REQUEST_AT_HOME: A load, fill, store, atomic or uncached access is served at its home slice. (R39) -/
  | requestAtHome (slice : Nat) (r : Access)
  /-- MEMORY_REPLY_AT_HOME: A fill from memory lands at the home or memory accepts an uncached write. (R39) -/
  | memoryReplyAtHome (slice cid line : Nat)
  /-- MEMORY_CONTROLLER_REQUEST: A request from a home reaches a channel or root-port controller. (R53) -/
  | memoryControllerRequest (ctrl page cid : Nat)
  /-- HOTNESS_INTERVAL_END: At interval end the controller publishes its list and clears its sketch. (R55) -/
  | hotnessIntervalEnd (ctrl : Nat)
  /-- MG_HOTCTL_WRITE: A write to MG.HOTCTL clears all sketches and starts a new interval. (R56) -/
  | mgHotctlWrite (value : Word)
  /-- L1_FILL_LANDS: A data reply lands at a miss-status entry and serves its loads. (R51) -/
  | l1FillLands (ends : Hop) (cid line : Nat) (install : Bool) (data : Carried)
  /-- INVALIDATION_PROBE: An invalidation probe reaches a core's L1 and is acknowledged. (R45) -/
  | invalidationProbe (core slice cid line : Nat)
  /-- PROBE_ACK_AT_HOME: A probe acknowledgement reaches the home, possibly completing the write. (R110) -/
  | probeAckAtHome (ends : Hop) (cid line : Nat) (dirtyHit : Bool)
  /-- TOW_ARRIVES_L1: A tow is installed in or dropped by a consumer's L1. (R140) -/
  | towArrivesL1 (core slice cid line handle : Nat) (data : List Byte)
  /-- TOW_ARRIVES_BASIN: A tow is applied word by word to a consumer's basin. (R141) -/
  | towArrivesBasin (core slice cid line handle : Nat) (data : List Byte)
  /-- TOW_ACK: A tow acknowledgement reaches the home, reopening writes to the line. (R139) -/
  | towAck (ends : Hop) (cid line : Nat)
  /-- TOW_USE_REPORT: A consumer's use-or-waste report reaches the line's home. (R142) -/
  | towUseReport (ends : Hop) (handle : Nat) (used : Bool)
  /-- STEP_MESSAGE: TWSTEP's step message reaches a slice and closes its step. (R144) -/
  | stepMessage (slice handle : Nat) (slot : Option Nat)
  /-- REMOTE_ACCESS_ARRIVAL: A REMC access is checked and performed or refused at the target cluster. (R26) -/
  | remoteAccessArrival (r : Access)
  /-- DOM_ACCESS_ARRIVAL: A DOM access is translated and performed at the remote device. (R116) -/
  | domAccessArrival (dev scid : Nat) (r : Access)
  /-- DOMAIN_TIMEOUT: A DOM access with no answer within the domain timeout is refused. (R116) -/
  | domainTimeout (r : Access)
  /-- BASIN_FILL_LANDS: A basin fill lands and writes absent unprobed words. (R61) -/
  | basinFillLands (ends : Hop) (clus : Bool) (sline : Nat) (reg : Bool) (data : Carried)
  /-- BASIN_INVALIDATION_PROBE: A write's probe is applied to a basin holder's words. (R64) -/
  | basinInvalidationProbe (core : Nat) (clus : Bool) (sline slice cid line mask : Nat) (fromBasin : Bool)
  /-- RECALL_PROBE: A recall probe clears REG and drops clean words at the holder. (R68) -/
  | recallProbe (core : Nat) (clus : Bool) (sline slice cid line : Nat)
  /-- WRITE_BACK_MESSAGE: A basin write-back message is performed at its home as one write. (R65) -/
  | writeBackMessage (slice : Nat) (r : Access)
  /-- WRITE_BACK_ACK: A write-back acknowledgement returns SENT words to CLEAN or ABSENT. (R65) -/
  | writeBackAck (ends : Hop) (tx bn : Nat) (clus : Bool) (sline : Nat) (reg : Bool) (marks : WbMarks) (refused : Bool)
  /-- HOST_MEMRD_SHARED: The host reads a half shared. (R119) -/
  | hostMemrdShared (slice cid line half : Nat)
  /-- HOST_MEMRD_OWN: The host reads a half for ownership (MemRd Any or MemRdData). (R119) -/
  | hostMemrdOwn (slice cid line half : Nat)
  /-- HOST_MEMWR: The host writes a 64-byte half. (R119) -/
  | hostMemwr (slice cid line half : Nat) (data : List Byte) (meta_ : Nat)
  /-- HOST_MEMINV: The host drops a shared half. (R119) -/
  | hostMeminv (slice cid line half : Nat)
  /-- HOST_MEMSPECRD: A speculative host read taken as a hint. (R117) -/
  | hostMemspecrd (slice cid line half : Nat)
  /-- BACK_INVALIDATION_RESPONSE: A BIRspI or BIRspS from the host completes a back-invalidation. (R119) -/
  | backInvalidationResponse (slice cid line half : Nat) (shared : Bool)
  /-- WALK_COMPLETE: A page walk ends, installing a translation or parking its accesses. (R372) -/
  | walkComplete (cluster cid page : Nat)
  /-- FAULT_QUEUE_RETRY: A fault waiting for a full or unwritable ring is tried again. (R356) -/
  | faultQueueRetry (cid : Nat)
  /-- PINV_ACCEPT: A port or walk cache accepts an invalidation and acknowledges when safe. (R375) -/
  | pinvAccept (cluster slot : Nat) (req arg : Word)
  /-- SPAWN_ARRIVAL: A spawn reaches its target core and is started, queued or refused. (R284) -/
  | spawnArrival (q : SpawnReq)
  /-- SLOT_GRANT: A freed slot is given to the next creation in class order. (R347) -/
  | slotGrant (core : Nat)
  /-- SAVE_REPORTED: A slot's save is reported and the slot freed. (R359) -/
  | saveReported (slot : Nat)
  /-- FORCED_SAVE: At the yield deadline a pending slot's save is forced. (R361) -/
  | forcedSave (core : Nat)
  /-- SLEEP_LIMIT: A sleeping thread's cycle limit expires. (R289) -/
  | sleepLimit (slot : Nat)
  /-- RECVT_LIMIT: A RECVT limit passes and it returns TIMEOUT. (R306) -/
  | recvtLimit (slot : Nat)
  /-- SLUICE_TIMEOUT: A participant's timer reaches TO and the episode releases with TIMEOUT. (R299) -/
  | sluiceTimeout (core : Nat) (tree : Bool) (idx : Nat)
  /-- INBOX_DELIVERY: A job report or bounce enters a core's inbox. (R186) -/
  | inboxDelivery (core : Nat) (entry : Word)
  /-- MESSAGE_DELIVERY: A sent message reaches its endpoint directory and is delivered, overflowed or bounced. (R305) -/
  | messageDelivery (m : Message)
  /-- TS_TCHG_WRITE: A write to TS.TCHG requests a tenant change. (R361) -/
  | tsTchgWrite (core : Nat) (value : Word)
  /-- TS_JREL_WRITE: A write to TS.JREL releases a refused or poisoned journal entry. (R358) -/
  | tsJrelWrite (core : Nat) (value : Word)
  /-- TS_EWAKE_WRITE: A write to TS.EWAKE resumes an engine job stopped on a fault. (R357) -/
  | tsEwakeWrite (value : Word)
  /-- MT_CTX: Loads the owning core's matrix format context. (R268) -/
  | mtCtx (cluster job : Nat)
  /-- MT_TERN: Runs a ternary matrix job on its ring. (R269) -/
  | mtTern (cluster job : Nat)
  /-- MT_BOOTH: Runs an INT8 radix-4 matrix job on its ring. (R269) -/
  | mtBooth (cluster job : Nat)
  /-- MT_ZERO: Sets every member's held accumulator set to zeros. (R270) -/
  | mtZero (cluster job : Nat)
  /-- MT_DRAIN: Drains the held accumulator set as tile 0. (R270) -/
  | mtDrain (cluster job : Nat)
  /-- CP_COPY: Copies and converts elements along the descriptor's walk. (R276) -/
  | cpCopy (cluster job : Nat)
  /-- CP_FILL: Fills the destination with a pattern. (R274) -/
  | cpFill (cluster job : Nat)
  /-- CP_GATH: Copies with indexed source offsets. (R277) -/
  | cpGath (cluster job : Nat)
  /-- CP_SCAT: Copies with indexed destination offsets. (R277) -/
  | cpScat (cluster job : Nat)
  /-- CP_RED: Adds source elements into the destination atomically per element. (R276) -/
  | cpRed (cluster job : Nat)
  /-- CP_AR: All-reduces elements across the domain's devices. (R280) -/
  | cpAr (cluster job : Nat)
  /-- CP_BCAST: Broadcasts elements from the root device across the domain. (R280) -/
  | cpBcast (cluster job : Nat)
  /-- COPY_WRITE_ACK: An engine write's acknowledgement updates the job's progress record. (R125) -/
  | copyWriteAck (ends : Hop) (job unit : Nat) (ok hp : Bool) (red : Reduced)
  /-- RING_STEP: A matrix ring step ends and tiles pass to the neighbour slice. (R252) -/
  | ringStep (cluster job : Nat)
  /-- ROW_DRAIN: A member moves an accumulator row into a free drain-buffer row. (R271) -/
  | rowDrain (cluster job member : Nat)
  /-- ROW_HANDLER_START: A drained row starts a handler in a reserved slot. (R271) -/
  | rowHandlerStart (core : Nat)
  /-- JOB_PREEMPTION: A matrix job is stopped at a step boundary and its accumulators saved. (R129) -/
  | jobPreemption (cluster job : Nat)
  /-- JOB_RESUME: A stopped matrix job is restored and continues from its saved step. (R273) -/
  | jobResume (cluster job : Nat)
  /-- COLLECTIVE_MATCH: The jobs of a domain collective meet and check their parameters. (R281) -/
  | collectiveMatch (cluster job : Nat) (peers : List Peer)
  /-- COLLECTIVE_TIMEOUT: A collective participant fails to answer within the domain timeout. (R280) -/
  | collectiveTimeout (cluster job : Nat)
  /-- SNAPSHOT_RESTORE: A runnable snapshot is restored as an activation with its answer. (R326) -/
  | snapshotRestore (die snap : Nat)
  /-- HOST_RING_SLOT: The scheduler takes a host ring slot into its launch queue. (R340) -/
  | hostRingSlot (cid : Nat)
  /-- COUNTER_POLL: The scheduler reads a waiting launch's event counters at least every 10 µs. (R342) -/
  | counterPoll (cid : Nat)
  /-- LAUNCH_PLACEMENT: A ready launch is checked and placed all or nothing as a flotilla. (R344) -/
  | launchPlacement (cid : Nat)
  /-- FLOTILLA_RETIREMENT: A flotilla with no threads retires and signals its event counter. (R345) -/
  | flotillaRetirement (flotilla : Nat)
  /-- DOORBELL_TAIL: A host write of TAIL admits new ring slots or sets RERR. (R380) -/
  | doorbellTail (vf : Nat) (tail : BitVec 32)
  /-- DOORBELL_RERR_CLEAR: A write of 1 clears RERR in the doorbell page. (R379) -/
  | doorbellRerrClear (vf : Nat) (value : Word)
  /-- PART_CREATE: Creates a partition from a descriptor, scrubbing its clusters. (R382) -/
  | partCreate (desc : List Word)
  /-- PART_DESTROY: Halts a partition and frees its clusters and CID. (R382) -/
  | partDestroy (cid : Nat)
  /-- VF_BIND: Binds or unbinds a virtual function and a partition. (R382) -/
  | vfBind (vf cid : Nat)
  /-- FLUSH_COMMON: Writes back and invalidates every CID 0 line. (R382) -/
  | flushCommon
  /-- DOMAIN_SET: Sets the device number, domain timeout and import table. (R387) -/
  | domainSet (arg : Word) (area : List Word)
  /-- VF_ENABLE_CLEAR: Clearing VF Enable halts a bound partition. (R385) -/
  | vfEnableClear
  /-- FUNCTION_LEVEL_RESET: A Function Level Reset of a VF halts its partition. (R385) -/
  | functionLevelReset (vf : Nat)
  /-- VF_ENABLE_SET: Setting VF Enable again clears HALT and starts the partition empty. (R385) -/
  | vfEnableSet
  /-- ATTESTATION_REPORT: A DOE request returns a signed attestation report. (R395) -/
  | attestationReport (nonce : BitVec 256)
  /-- AQUEDUCT_PORT_FAILURE: A failed Aqueduct port moves its routes to another port. (R387) -/
  | aqueductPortFailure (port : Nat)
  /-- CXL_RESPONSE_TIMEOUT: A CXL expander access with no response in 10 ms returns poison or is logged. (R386) -/
  | cxlResponseTimeout (slice cid line : Nat) (write : Bool)
  /-- MARCH_TEST_COMPLETE: A row's self-test ends, retiring it or returning its contents. (R393) -/
  | marchTestComplete (str adr unit cid : Nat) (faulty repaired : Bool)
  /-- RESET: Reset starts calibration and firmware verification. (R394) -/
  | reset
  /-- CALIBRATION_COMPLETE: Calibration ends and memory initialisation begins. (R394) -/
  | calibrationComplete (controller mmode : Firmware) (calibration : List Byte) (link0 : LinkMode) (link1 : MemLink)
  /-- MEMORY_INIT_COMPLETE: Memory initialisation ends and READY is set. (R394) -/
  | memoryInitComplete
  /-- ZEROING_COMPLETE: Background HBM4E zeroing completes and ZDONE is set. (R394) -/
  | zeroingComplete
  /-- POWER_LIMIT: Reaching the power or temperature limit lowers the clocks and sets THR. (R396) -/
  | powerLimit
  /-- THERMAL_SHUTDOWN: At 105 °C the package stops every clock. (R396) -/
  | thermalShutdown
  /-- CHIP_SCRATCHPAD_ACCESS: A chip-scratchpad load, store or atomic arrives at the slice that holds its byte and is performed there in arrival order. (R35) -/
  | chipScratchpadAccess (r : Access)
  /-- BAR_WINDOW_ACCESS: A host read or write through a function's BAR2 window in PCI Express mode is served at the home as an uncached access to an untracked page. (R378) -/
  | barWindowAccess (vf addr : Nat) (op : MemOp)
  /-- SLOT_LENDING: A slot is lent, and its thread enters SAVING so that the slot can be handed on. (R359) -/
  | slotLending (slot : Nat)
  deriving DecidableEq, Repr

end Sys2Proof
end

