-- ==== Sys2Proof/WellFormed.lean ====
section
/-! DEFINITION. Well-formed instructions: the register numbers and field values that spec/10_encoding.md
(R154, R156, R158 steps 3 and 4) and each instruction's own table allow. -/

namespace Sys2Proof

/-- A field read as a single source: any number but `sd` (R154). -/
def srcOk (r : Reg) : Bool := r != 125

/-- A field that is only written: any number but `ld` and `ib` (R154, R189). -/
def dstOk (r : Reg) : Bool := r != 124 && r != 126

/-- A field that may hold a window register or `zr` only (R189, R206, R282, R319). -/
def resOk (r : Reg) : Bool := decide (r.toNat ≤ 111) || r == 127

/-- A field that must hold a window register, or the first number of a register group (R156). -/
def winOk (r : Reg) : Bool := decide (r.toNat ≤ 111)

/-- A field that must hold a stream register (R164). -/
def strOk (r : Reg) : Bool := decide (112 ≤ r.toNat) && decide (r.toNat ≤ 123)

/-- The system registers that have a read column (R354). -/
def readable (k : BitVec 14) : Bool :=
  (decide (k.toNat ≤ 0x5) || (decide (0x8 ≤ k.toNat) && decide (k.toNat ≤ 0xC)) || k == 0x10 || k == 0x11 ||
    (decide (0x18 ≤ k.toNat) && decide (k.toNat ≤ 0x1C)) || (decide (0x20 ≤ k.toNat) && decide (k.toNat ≤ 0x22)) ||
    (decide (0x100 ≤ k.toNat) && decide (k.toNat ≤ 0x104)))

/-- The system registers that have a write column (R354). -/
def writable (k : BitVec 14) : Bool :=
  (decide (k.toNat ≤ 0x5) || (decide (0x9 ≤ k.toNat) && decide (k.toNat ≤ 0xC)) ||
    (decide (0x10 ≤ k.toNat) && decide (k.toNat ≤ 0x12)) || k == 0x18 || k == 0x1D || k == 0x100 ||
    (decide (0x102 ≤ k.toNat) && decide (k.toNat ≤ 0x104)))

/-- What steps 3 and 4 of R158 ask of an instruction. A row of the table that is an event has no word. -/
def Instr.wf : Instr → Bool
  | .add d a b => dstOk d && srcOk a && srcOk b
  | .sub d a b => dstOk d && srcOk a && srcOk b
  | .mul d a b => dstOk d && srcOk a && srcOk b
  | .mulh d a b => dstOk d && srcOk a && srcOk b
  | .mulhu d a b => dstOk d && srcOk a && srcOk b
  | .mulhsu d a b => dstOk d && srcOk a && srcOk b
  | .div d a b => resOk d && srcOk a && srcOk b
  | .divu d a b => resOk d && srcOk a && srcOk b
  | .rem d a b => resOk d && srcOk a && srcOk b
  | .remu d a b => resOk d && srcOk a && srcOk b
  | .and d a b => dstOk d && srcOk a && srcOk b
  | .or d a b => dstOk d && srcOk a && srcOk b
  | .xor d a b => dstOk d && srcOk a && srcOk b
  | .andn d a b => dstOk d && srcOk a && srcOk b
  | .orn d a b => dstOk d && srcOk a && srcOk b
  | .xnor d a b => dstOk d && srcOk a && srcOk b
  | .shl d a b => dstOk d && srcOk a && srcOk b
  | .shr d a b => dstOk d && srcOk a && srcOk b
  | .sra d a b => dstOk d && srcOk a && srcOk b
  | .rol d a b => dstOk d && srcOk a && srcOk b
  | .ror d a b => dstOk d && srcOk a && srcOk b
  | .min d a b => dstOk d && srcOk a && srcOk b
  | .max d a b => dstOk d && srcOk a && srcOk b
  | .minu d a b => dstOk d && srcOk a && srcOk b
  | .maxu d a b => dstOk d && srcOk a && srcOk b
  | .seq d a b => dstOk d && srcOk a && srcOk b
  | .sne d a b => dstOk d && srcOk a && srcOk b
  | .slt d a b => dstOk d && srcOk a && srcOk b
  | .sltu d a b => dstOk d && srcOk a && srcOk b
  | .sle d a b => dstOk d && srcOk a && srcOk b
  | .sleu d a b => dstOk d && srcOk a && srcOk b
  | .sel d a b => resOk d && srcOk a && srcOk b
  | .clz d a => dstOk d && srcOk a
  | .ctz d a => dstOk d && srcOk a
  | .popc d a => dstOk d && srcOk a
  | .brev d a => dstOk d && srcOk a
  | .bswap d a => dstOk d && srcOk a
  | .sextb d a => dstOk d && srcOk a
  | .sexth d a => dstOk d && srcOk a
  | .sextw d a => dstOk d && srcOk a
  | .zextb d a => dstOk d && srcOk a
  | .zexth d a => dstOk d && srcOk a
  | .zextw d a => dstOk d && srcOk a
  | .hash d a b => dstOk d && srcOk a && srcOk b
  | .addi d a _ => dstOk d && srcOk a
  | .andi d a _ => dstOk d && srcOk a
  | .ori d a _ => dstOk d && srcOk a
  | .xori d a _ => dstOk d && srcOk a
  | .slti d a _ => dstOk d && srcOk a
  | .sltiu d a _ => dstOk d && srcOk a
  | .shli d a _ => dstOk d && srcOk a
  | .shri d a _ => dstOk d && srcOk a
  | .srai d a _ => dstOk d && srcOk a
  | .rori d a _ => dstOk d && srcOk a
  | .movi d _ => dstOk d
  | .movh d _ _ => resOk d
  | .bfx d a p w => dstOk d && srcOk a && decide (p.toNat + w.toNat ≤ 63)
  | .bfi d a p w => resOk d && srcOk a && decide (p.toNat + w.toNat ≤ 63)
  | .beq a b _ => srcOk a && srcOk b
  | .bne a b _ => srcOk a && srcOk b
  | .blt a b _ => srcOk a && srcOk b
  | .bge a b _ => srcOk a && srcOk b
  | .bltu a b _ => srcOk a && srcOk b
  | .bgeu a b _ => srcOk a && srcOk b
  | .jmp _ => true
  | .call d _ => resOk d
  | .jr a => srcOk a
  | .callr d a => resOk d && srcOk a
  | .bdnz d _ => winOk d
  | .ldb t a _ _ => resOk t && srcOk a
  | .ldbu t a _ _ => resOk t && srcOk a
  | .ldh t a _ _ => resOk t && srcOk a
  | .ldhu t a _ _ => resOk t && srcOk a
  | .ldw t a _ _ => resOk t && srcOk a
  | .ldwu t a _ _ => resOk t && srcOk a
  | .ldd t a _ _ => resOk t && srcOk a
  | .stb t a _ _ => srcOk t && srcOk a
  | .sth t a _ _ => srcOk t && srcOk a
  | .stw t a _ _ => srcOk t && srcOk a
  | .std t a _ _ => srcOk t && srcOk a
  | .ldqw a _ _ => srcOk a
  | .ldqd a _ _ => srcOk a
  | .stqw a _ _ => srcOk a
  | .stqd a _ _ => srcOk a
  | .lda t a _ _ _ _ => resOk t && srcOk a
  | .stl t a _ _ _ _ => srcOk t && srcOk a
  | .fence _ => true
  | .aadd d a _ _ _ _ => resOk d && resOk a
  | .aand d a _ _ _ _ => resOk d && resOk a
  | .aor d a _ _ _ _ => resOk d && resOk a
  | .axor d a _ _ _ _ => resOk d && resOk a
  | .amin d a _ _ _ _ => resOk d && resOk a
  | .amax d a _ _ _ _ => resOk d && resOk a
  | .aminu d a _ _ _ _ => resOk d && resOk a
  | .amaxu d a _ _ _ _ => resOk d && resOk a
  | .aswp d a _ _ _ _ => resOk d && resOk a
  | .acas d a _ _ _ _ => winOk d && resOk a
  | .strm d a b _ => strOk d && resOk a && resOk b
  | .strx d a b _ => strOk d && resOk a && resOk b
  | .strq d b => strOk d && resOk b
  | .pref _ a h => resOk a && h != 3
  | .cflush _ a => resOk a
  | .cinv _ a => resOk a
  | .bsnmap d a b => resOk d && resOk a && resOk b
  | .bsnsync d a => resOk d && resOk a
  | .bsndropWb d a => resOk d && resOk a
  | .bsndropNw d a => resOk d && resOk a
  | .bsnqry d a => resOk d && resOk a
  | .twrecNew d a b => resOk d && resOk a && resOk b
  | .twrecRerecord d a b => resOk d && resOk a && resOk b
  | .twstep d a => resOk d && resOk a
  | .twend d a => resOk d && resOk a
  | .twstat d a => resOk d && resOk a
  | .twdrop d a => resOk d && resOk a
  | .vaddI32 _ _ _ _ => true
  | .vsubI32 _ _ _ _ => true
  | .vmulI32 _ _ _ _ => true
  | .vmulhI32 _ _ _ _ => true
  | .vminI32 _ _ _ _ => true
  | .vmaxI32 _ _ _ _ => true
  | .vminuI32 _ _ _ _ => true
  | .vmaxuI32 _ _ _ _ => true
  | .vandI32 _ _ _ _ => true
  | .vorI32 _ _ _ _ => true
  | .vxorI32 _ _ _ _ => true
  | .vshlI32 _ _ _ _ => true
  | .vshrI32 _ _ _ _ => true
  | .vsraI32 _ _ _ _ => true
  | .vaddsI32 _ _ _ _ => true
  | .vsubsI32 _ _ _ _ => true
  | .vaddI8x4 _ _ _ _ => true
  | .vsubI8x4 _ _ _ _ => true
  | .vaddsI8x4 _ _ _ _ => true
  | .vsubsI8x4 _ _ _ _ => true
  | .vminI8x4 _ _ _ _ => true
  | .vmaxI8x4 _ _ _ _ => true
  | .vminuI8x4 _ _ _ _ => true
  | .vmaxuI8x4 _ _ _ _ => true
  | .vdot4 _ _ _ _ => true
  | .vdot4su _ _ _ _ => true
  | .vabsdI8x4 _ _ _ _ => true
  | .vavgI8x4 _ _ _ _ => true
  | .vaddBf16x2 _ _ _ _ => true
  | .vsubBf16x2 _ _ _ _ => true
  | .vmulBf16x2 _ _ _ _ => true
  | .vfmaBf16x2 _ _ _ _ => true
  | .vminBf16x2 _ _ _ _ => true
  | .vmaxBf16x2 _ _ _ _ => true
  | .vdot2 _ _ _ _ => true
  | .vaddF32 _ _ _ _ => true
  | .vsubF32 _ _ _ _ => true
  | .vmulF32 _ _ _ _ => true
  | .vfmaF32 _ _ _ _ => true
  | .vfmsF32 _ _ _ _ => true
  | .vminF32 _ _ _ _ => true
  | .vmaxF32 _ _ _ _ => true
  | .vabsF32 _ _ _ => true
  | .vnegF32 _ _ _ => true
  | .frcpa _ _ _ => true
  | .frsqa _ _ _ => true
  | .fexp2a _ _ _ => true
  | .vcvtF32I32 _ _ _ _ => true
  | .vcvtI32F32 _ _ _ _ => true
  | .vcvtF32Bf16 _ _ _ _ => true
  | .vcvtBf16F32 _ _ _ _ _ => true
  | .vcvtF32E4m3 _ _ _ _ => true
  | .vcvtF32E5m2 _ _ _ _ => true
  | .vcvtE4m3F32 _ _ _ _ _ => true
  | .vcvtE5m2F32 _ _ _ _ _ => true
  | .vcvtF32I8 _ _ _ _ => true
  | .vcvtI8F32 _ _ _ _ _ => true
  | .vld _ a _ _ => resOk a
  | .vst _ a _ _ => resOk a
  | .vlds _ a _ _ _ => resOk a
  | .vgath _ a _ _ _ => resOk a
  | .vscat _ a _ _ _ => resOk a
  | .vbcast _ a _ => srcOk a
  | .vextr d _ _ => dstOk d
  | .vins _ a _ _ => srcOk a
  | .vperm _ _ _ _ => true
  | .vrot _ _ _ _ => true
  | .vredaddI32 d _ _ => resOk d
  | .vredaddF32 d _ _ => resOk d
  | .vredmaxI32 d _ _ => resOk d
  | .vredmaxF32 d _ _ => resOk d
  | .vscanI32 _ _ _ => true
  | .vscanF32 _ _ _ => true
  | .vcmpeqI32 _ _ _ => true
  | .vcmpltI32 _ _ _ => true
  | .vcmpltuI32 _ _ _ => true
  | .vcmpleI32 _ _ _ => true
  | .vcmpeqF32 _ _ _ => true
  | .vcmpltF32 _ _ _ => true
  | .vcmpleF32 _ _ _ => true
  | .vcmpunF32 _ _ _ => true
  | .vsel _ _ _ => true
  | .vpmovToX d => dstOk d
  | .vpmovToVp a => srcOk a
  | .jsub d a => resOk d && winOk a
  | .jpoll d a => resOk d && srcOk a
  | .jwait d a => resOk d && srcOk a
  | .jcancel d a => resOk d && srcOk a
  | .mgang d a => resOk d && srcOk a
  | .rdone => true
  | .spawn d a b => resOk d && winOk a && winOk b
  | .exit => true
  | .yield => true
  | .sleep a => srcOk a
  | .wakeSlot d a => resOk d && srcOk a
  | .wakeSwid d a => resOk d && srcOk a
  | .wakeParked d a => resOk d && srcOk a
  | .join d a => resOk d && srcOk a
  | .leave d a => resOk d && srcOk a
  | .gbar d a => resOk d && srcOk a
  | .gcnt d a => resOk d && srcOk a
  | .sluice d a => resOk d && srcOk a
  | .tid d => resOk d
  | .flaunch d a => resOk d && srcOk a
  | .send d a b _ => resOk d && srcOk a && winOk b
  | .recv d a => resOk d && srcOk a
  | .recvt d a b => resOk d && srcOk a && srcOk b
  | .rack d a => resOk d && srcOk a
  | .epnew d a => resOk d && srcOk a
  | .epfree d a => resOk d && srcOk a
  | .epmove d a b => resOk d && srcOk a && srcOk b
  | .tcall d a b _ => winOk d && winOk a && srcOk b
  | .tans d a _ => resOk d && winOk a
  | .tret => true
  | .tnext d a => winOk d && srcOk a
  | .terr => true
  | .trel a => srcOk a
  | .tlook d a b _ => winOk d && winOk a && srcOk b
  | .tctlStat d a b => resOk d && srcOk a && srcOk b
  | .tctlFlushCallee d a b => resOk d && srcOk a && srcOk b
  | .tctlFlushCid d a b => resOk d && srcOk a && srcOk b
  | .mfs d k => dstOk d && readable k
  | .mts d k => srcOk d && writable k
  | .trap _ => true
  | .eret => true
  | .brk _ => true
  | .segld _ a => winOk a
  | .segrd d _ => winOk d
  | .pinv d a b => resOk d && srcOk a && srcOk b
  | .asyncTrapDelivery _ => false
  | .operationResult _ _ => false
  | .loadDataArrives _ _ _ _ => false
  | .storeDrain _ => false
  | .storeAck _ _ _ _ => false
  | .hostDone _ => false
  | .requestAtHome _ _ => false
  | .memoryReplyAtHome _ _ _ => false
  | .memoryControllerRequest _ _ _ => false
  | .hotnessIntervalEnd _ => false
  | .mgHotctlWrite _ => false
  | .l1FillLands _ _ _ _ _ => false
  | .invalidationProbe _ _ _ _ => false
  | .probeAckAtHome _ _ _ _ => false
  | .towArrivesL1 _ _ _ _ _ _ => false
  | .towArrivesBasin _ _ _ _ _ _ => false
  | .towAck _ _ _ => false
  | .towUseReport _ _ _ => false
  | .stepMessage _ _ _ => false
  | .remoteAccessArrival _ => false
  | .domAccessArrival _ _ _ => false
  | .domainTimeout _ => false
  | .basinFillLands _ _ _ _ _ => false
  | .basinInvalidationProbe _ _ _ _ _ _ _ _ => false
  | .recallProbe _ _ _ _ _ _ => false
  | .writeBackMessage _ _ => false
  | .writeBackAck _ _ _ _ _ _ _ _ => false
  | .hostMemrdShared _ _ _ _ => false
  | .hostMemrdOwn _ _ _ _ => false
  | .hostMemwr _ _ _ _ _ _ => false
  | .hostMeminv _ _ _ _ => false
  | .hostMemspecrd _ _ _ _ => false
  | .backInvalidationResponse _ _ _ _ _ => false
  | .walkComplete _ _ _ => false
  | .faultQueueRetry _ => false
  | .pinvAccept _ _ _ _ => false
  | .spawnArrival _ => false
  | .slotGrant _ => false
  | .saveReported _ => false
  | .forcedSave _ => false
  | .sleepLimit _ => false
  | .recvtLimit _ => false
  | .sluiceTimeout _ _ _ => false
  | .inboxDelivery _ _ => false
  | .messageDelivery _ => false
  | .tsTchgWrite _ _ => false
  | .tsJrelWrite _ _ => false
  | .tsEwakeWrite _ => false
  | .mtCtx _ _ => false
  | .mtTern _ _ => false
  | .mtBooth _ _ => false
  | .mtZero _ _ => false
  | .mtDrain _ _ => false
  | .cpCopy _ _ => false
  | .cpFill _ _ => false
  | .cpGath _ _ => false
  | .cpScat _ _ => false
  | .cpRed _ _ => false
  | .cpAr _ _ => false
  | .cpBcast _ _ => false
  | .copyWriteAck _ _ _ _ _ _ => false
  | .ringStep _ _ => false
  | .rowDrain _ _ _ => false
  | .rowHandlerStart _ => false
  | .jobPreemption _ _ => false
  | .jobResume _ _ => false
  | .collectiveMatch _ _ _ => false
  | .collectiveTimeout _ _ => false
  | .snapshotRestore _ _ => false
  | .hostRingSlot _ => false
  | .counterPoll _ => false
  | .launchPlacement _ => false
  | .flotillaRetirement _ => false
  | .doorbellTail _ _ => false
  | .doorbellRerrClear _ _ => false
  | .partCreate _ => false
  | .partDestroy _ => false
  | .vfBind _ _ => false
  | .flushCommon => false
  | .domainSet _ _ => false
  | .vfEnableClear => false
  | .functionLevelReset _ => false
  | .vfEnableSet => false
  | .attestationReport _ => false
  | .aqueductPortFailure _ => false
  | .cxlResponseTimeout _ _ _ _ => false
  | .marchTestComplete _ _ _ _ _ _ => false
  | .reset => false
  | .calibrationComplete _ _ _ _ _ => false
  | .memoryInitComplete => false
  | .zeroingComplete => false
  | .powerLimit => false
  | .thermalShutdown => false
  | .chipScratchpadAccess _ => false
  | .barWindowAccess _ _ _ => false
  | .slotLending _ => false

end Sys2Proof
end

