-- ==== Sys2Proof/Decode.lean ====
section
/-! DEFINITION. The decoder of the instruction words of spec/10_encoding.md, total on every word, and the
encoder written from the same tables. -/

namespace Sys2Proof

/-- The scope coded 0 to 6; 7 is illegal (R162). -/
def scopeOf (b : BitVec 3) : Option Scope :=
  match b.toNat with
  | 0 => some .th
  | 1 => some .co
  | 2 => some .cl
  | 3 => some .di
  | 4 => some .pk
  | 5 => some .dm
  | 6 => some .sy
  | _ => none

/-- A scope's code (R162). -/
def scopeBits : Scope → BitVec 3
  | .th => 0
  | .co => 1
  | .cl => 2
  | .di => 3
  | .pk => 4
  | .dm => 5
  | .sy => 6

/-- An atomic's ordering choice (R163). -/
def ordOf (b : BitVec 2) : AOrd :=
  match b.toNat with
  | 0 => .plain
  | 1 => .acq
  | 2 => .rel
  | _ => .ar

/-- The code of an ordering choice (R163). -/
def ordBits : AOrd → BitVec 2
  | .plain => 0
  | .acq => 1
  | .rel => 2
  | .ar => 3

/-- A rounding mode (R166, R228). -/
def rmOf (b : BitVec 2) : Rm :=
  match b.toNat with
  | 0 => .rne
  | 1 => .rtz
  | 2 => .rup
  | _ => .rdn

/-- The code of a rounding mode (R166). -/
def rmBits : Rm → BitVec 2
  | .rne => 0
  | .rtz => 1
  | .rup => 2
  | .rdn => 3

/-- A word from its major opcode, its two upper register fields and its low twelve bits (R153). -/
def pack (op : BitVec 6) (d a : BitVec 7) (lo : BitVec 12) : BitVec 32 := op ++ d ++ a ++ lo

/-- Major 0x01 (spec/10_encoding.md). -/
def decode01 (d a : Reg) (lo : BitVec 12) : Option Instr :=
  match (lo.extractLsb' 0 5).toNat with
  | 0 => some (.add d a (lo.extractLsb' 5 7))
  | 1 => some (.sub d a (lo.extractLsb' 5 7))
  | 2 => some (.mul d a (lo.extractLsb' 5 7))
  | 3 => some (.mulh d a (lo.extractLsb' 5 7))
  | 4 => some (.mulhu d a (lo.extractLsb' 5 7))
  | 5 => some (.mulhsu d a (lo.extractLsb' 5 7))
  | 6 => some (.div d a (lo.extractLsb' 5 7))
  | 7 => some (.divu d a (lo.extractLsb' 5 7))
  | 8 => some (.rem d a (lo.extractLsb' 5 7))
  | 9 => some (.remu d a (lo.extractLsb' 5 7))
  | 10 => some (.and d a (lo.extractLsb' 5 7))
  | 11 => some (.or d a (lo.extractLsb' 5 7))
  | 12 => some (.xor d a (lo.extractLsb' 5 7))
  | 13 => some (.andn d a (lo.extractLsb' 5 7))
  | 14 => some (.orn d a (lo.extractLsb' 5 7))
  | 15 => some (.xnor d a (lo.extractLsb' 5 7))
  | 16 => some (.shl d a (lo.extractLsb' 5 7))
  | 17 => some (.shr d a (lo.extractLsb' 5 7))
  | 18 => some (.sra d a (lo.extractLsb' 5 7))
  | 19 => some (.rol d a (lo.extractLsb' 5 7))
  | 20 => some (.ror d a (lo.extractLsb' 5 7))
  | 21 => some (.min d a (lo.extractLsb' 5 7))
  | 22 => some (.max d a (lo.extractLsb' 5 7))
  | 23 => some (.minu d a (lo.extractLsb' 5 7))
  | 24 => some (.maxu d a (lo.extractLsb' 5 7))
  | 25 => some (.seq d a (lo.extractLsb' 5 7))
  | 26 => some (.sne d a (lo.extractLsb' 5 7))
  | 27 => some (.slt d a (lo.extractLsb' 5 7))
  | 28 => some (.sltu d a (lo.extractLsb' 5 7))
  | 29 => some (.sle d a (lo.extractLsb' 5 7))
  | 30 => some (.sleu d a (lo.extractLsb' 5 7))
  | 31 => some (.sel d a (lo.extractLsb' 5 7))
  | _ => none

/-- Major 0x02 (spec/10_encoding.md). -/
def decode02 (d a : Reg) (lo : BitVec 12) : Option Instr :=
  match (lo.extractLsb' 0 5).toNat with
  | 0 => if lo.extractLsb' 5 7 == 0#7 then some (.clz d a) else none
  | 1 => if lo.extractLsb' 5 7 == 0#7 then some (.ctz d a) else none
  | 2 => if lo.extractLsb' 5 7 == 0#7 then some (.popc d a) else none
  | 3 => if lo.extractLsb' 5 7 == 0#7 then some (.brev d a) else none
  | 4 => if lo.extractLsb' 5 7 == 0#7 then some (.bswap d a) else none
  | 5 => if lo.extractLsb' 5 7 == 0#7 then some (.sextb d a) else none
  | 6 => if lo.extractLsb' 5 7 == 0#7 then some (.sexth d a) else none
  | 7 => if lo.extractLsb' 5 7 == 0#7 then some (.sextw d a) else none
  | 8 => if lo.extractLsb' 5 7 == 0#7 then some (.zextb d a) else none
  | 9 => if lo.extractLsb' 5 7 == 0#7 then some (.zexth d a) else none
  | 10 => if lo.extractLsb' 5 7 == 0#7 then some (.zextw d a) else none
  | 11 => some (.hash d a (lo.extractLsb' 5 7))
  | _ => none

/-- Major 0x09 (spec/10_encoding.md). -/
def decode09 (d a : Reg) (lo : BitVec 12) : Option Instr :=
  match (lo.extractLsb' 10 2).toNat with
  | 0 => if lo.extractLsb' 6 4 == 0#4 then some (.shli d a (lo.extractLsb' 0 6)) else none
  | 1 => if lo.extractLsb' 6 4 == 0#4 then some (.shri d a (lo.extractLsb' 0 6)) else none
  | 2 => if lo.extractLsb' 6 4 == 0#4 then some (.srai d a (lo.extractLsb' 0 6)) else none
  | 3 => if lo.extractLsb' 6 4 == 0#4 then some (.rori d a (lo.extractLsb' 0 6)) else none
  | _ => none

/-- Major 0x0C (spec/10_encoding.md). -/
def decode0C (d a : Reg) (lo : BitVec 12) : Option Instr :=
  match (lo.extractLsb' 11 1).toNat with
  | 0 => some (.bfx d a (lo.extractLsb' 5 6) (lo.extractLsb' 0 5))
  | 1 => some (.bfi d a (lo.extractLsb' 5 6) (lo.extractLsb' 0 5))
  | _ => none

/-- Major 0x18 (spec/10_encoding.md). -/
def decode18 (d a : Reg) (lo : BitVec 12) : Option Instr :=
  match (lo.extractLsb' 0 5).toNat with
  | 0 => if d == 0#7 && lo.extractLsb' 5 7 == 0#7 then some (.jr a) else none
  | 1 => if lo.extractLsb' 5 7 == 0#7 then some (.callr d a) else none
  | _ => none

/-- Major 0x2B (spec/10_encoding.md). -/
def decode2B (d a : Reg) (lo : BitVec 12) : Option Instr :=
  match (d).toNat with
  | 0 => some (.ldqw a (lo.extractLsb' 9 3) (lo.extractLsb' 0 9))
  | 1 => some (.ldqd a (lo.extractLsb' 9 3) (lo.extractLsb' 0 9))
  | 2 => some (.stqw a (lo.extractLsb' 9 3) (lo.extractLsb' 0 9))
  | 3 => some (.stqd a (lo.extractLsb' 9 3) (lo.extractLsb' 0 9))
  | _ => none

/-- Major 0x2C (spec/10_encoding.md). -/
def decode2C (d a : Reg) (lo : BitVec 12) : Option Instr :=
  match (lo.extractLsb' 7 2).toNat with
  | 0 => (scopeOf (lo.extractLsb' 3 3)).map fun c => .lda d a (lo.extractLsb' 9 3) (lo.getLsbD 6) c (lo.extractLsb' 0 3)
  | 1 => (scopeOf (lo.extractLsb' 3 3)).map fun c => .stl d a (lo.extractLsb' 9 3) (lo.getLsbD 6) c (lo.extractLsb' 0 3)
  | 2 => if d == 0#7 && a == 0#7 && lo.extractLsb' 9 3 == 0#3 && lo.extractLsb' 6 1 == 0#1 && lo.extractLsb' 0 3 == 0#3 then (scopeOf (lo.extractLsb' 3 3)).map fun c => .fence c else none
  | _ => none

/-- Major 0x2D (spec/10_encoding.md). -/
def decode2D (d a : Reg) (lo : BitVec 12) : Option Instr :=
  match (lo.extractLsb' 8 4).toNat with
  | 0 => (scopeOf (lo.extractLsb' 4 3)).map fun c => .aadd d a (lo.getLsbD 7) c (ordOf (lo.extractLsb' 2 2)) (lo.extractLsb' 0 2)
  | 1 => (scopeOf (lo.extractLsb' 4 3)).map fun c => .aand d a (lo.getLsbD 7) c (ordOf (lo.extractLsb' 2 2)) (lo.extractLsb' 0 2)
  | 2 => (scopeOf (lo.extractLsb' 4 3)).map fun c => .aor d a (lo.getLsbD 7) c (ordOf (lo.extractLsb' 2 2)) (lo.extractLsb' 0 2)
  | 3 => (scopeOf (lo.extractLsb' 4 3)).map fun c => .axor d a (lo.getLsbD 7) c (ordOf (lo.extractLsb' 2 2)) (lo.extractLsb' 0 2)
  | 4 => (scopeOf (lo.extractLsb' 4 3)).map fun c => .amin d a (lo.getLsbD 7) c (ordOf (lo.extractLsb' 2 2)) (lo.extractLsb' 0 2)
  | 5 => (scopeOf (lo.extractLsb' 4 3)).map fun c => .amax d a (lo.getLsbD 7) c (ordOf (lo.extractLsb' 2 2)) (lo.extractLsb' 0 2)
  | 6 => (scopeOf (lo.extractLsb' 4 3)).map fun c => .aminu d a (lo.getLsbD 7) c (ordOf (lo.extractLsb' 2 2)) (lo.extractLsb' 0 2)
  | 7 => (scopeOf (lo.extractLsb' 4 3)).map fun c => .amaxu d a (lo.getLsbD 7) c (ordOf (lo.extractLsb' 2 2)) (lo.extractLsb' 0 2)
  | 8 => (scopeOf (lo.extractLsb' 4 3)).map fun c => .aswp d a (lo.getLsbD 7) c (ordOf (lo.extractLsb' 2 2)) (lo.extractLsb' 0 2)
  | 9 => (scopeOf (lo.extractLsb' 4 3)).map fun c => .acas d a (lo.getLsbD 7) c (ordOf (lo.extractLsb' 2 2)) (lo.extractLsb' 0 2)
  | _ => none

/-- Major 0x2E (spec/10_encoding.md). -/
def decode2E (d a : Reg) (lo : BitVec 12) : Option Instr :=
  match (lo.extractLsb' 0 2).toNat with
  | 0 => some (.strm d a (lo.extractLsb' 5 7) (lo.extractLsb' 2 3))
  | 1 => some (.strx d a (lo.extractLsb' 5 7) (lo.extractLsb' 2 3))
  | 2 => if a == 0#7 && lo.extractLsb' 2 3 == 0#3 then some (.strq d (lo.extractLsb' 5 7)) else none
  | _ => none

/-- Major 0x2F (spec/10_encoding.md). -/
def decode2F (d a : Reg) (lo : BitVec 12) : Option Instr :=
  match (lo.extractLsb' 0 5).toNat with
  | 0 => if d.extractLsb' 3 4 == 0#4 && lo.extractLsb' 7 5 == 0#5 then some (.pref (d.extractLsb' 0 3) a (lo.extractLsb' 5 2)) else none
  | 1 => if d.extractLsb' 3 4 == 0#4 && lo.extractLsb' 5 7 == 0#7 then some (.cflush (d.extractLsb' 0 3) a) else none
  | 2 => if d.extractLsb' 3 4 == 0#4 && lo.extractLsb' 5 7 == 0#7 then some (.cinv (d.extractLsb' 0 3) a) else none
  | 8 => some (.bsnmap d a (lo.extractLsb' 5 7))
  | 9 => if lo.extractLsb' 5 7 == 0#7 then some (.bsnsync d a) else none
  | 10 => if lo.extractLsb' 5 7 == 0#7 then some (.bsndropWb d a) else none
  | 11 => if lo.extractLsb' 5 7 == 0#7 then some (.bsndropNw d a) else none
  | 12 => if lo.extractLsb' 5 7 == 0#7 then some (.bsnqry d a) else none
  | 16 => some (.twrecNew d a (lo.extractLsb' 5 7))
  | 17 => if lo.extractLsb' 5 7 == 0#7 then some (.twstep d a) else none
  | 18 => if lo.extractLsb' 5 7 == 0#7 then some (.twend d a) else none
  | 19 => if lo.extractLsb' 5 7 == 0#7 then some (.twstat d a) else none
  | 20 => if lo.extractLsb' 5 7 == 0#7 then some (.twdrop d a) else none
  | _ => none

/-- Major 0x30 (spec/10_encoding.md). -/
def decode30 (d a : Reg) (lo : BitVec 12) : Option Instr :=
  match (lo.extractLsb' 0 4).toNat with
  | 0 => some (.vaddI32 d a (lo.extractLsb' 5 7) (lo.getLsbD 4))
  | 1 => some (.vsubI32 d a (lo.extractLsb' 5 7) (lo.getLsbD 4))
  | 2 => some (.vmulI32 d a (lo.extractLsb' 5 7) (lo.getLsbD 4))
  | 3 => some (.vmulhI32 d a (lo.extractLsb' 5 7) (lo.getLsbD 4))
  | 4 => some (.vminI32 d a (lo.extractLsb' 5 7) (lo.getLsbD 4))
  | 5 => some (.vmaxI32 d a (lo.extractLsb' 5 7) (lo.getLsbD 4))
  | 6 => some (.vminuI32 d a (lo.extractLsb' 5 7) (lo.getLsbD 4))
  | 7 => some (.vmaxuI32 d a (lo.extractLsb' 5 7) (lo.getLsbD 4))
  | 8 => some (.vandI32 d a (lo.extractLsb' 5 7) (lo.getLsbD 4))
  | 9 => some (.vorI32 d a (lo.extractLsb' 5 7) (lo.getLsbD 4))
  | 10 => some (.vxorI32 d a (lo.extractLsb' 5 7) (lo.getLsbD 4))
  | 11 => some (.vshlI32 d a (lo.extractLsb' 5 7) (lo.getLsbD 4))
  | 12 => some (.vshrI32 d a (lo.extractLsb' 5 7) (lo.getLsbD 4))
  | 13 => some (.vsraI32 d a (lo.extractLsb' 5 7) (lo.getLsbD 4))
  | 14 => some (.vaddsI32 d a (lo.extractLsb' 5 7) (lo.getLsbD 4))
  | 15 => some (.vsubsI32 d a (lo.extractLsb' 5 7) (lo.getLsbD 4))
  | _ => none

/-- Major 0x31 (spec/10_encoding.md). -/
def decode31 (d a : Reg) (lo : BitVec 12) : Option Instr :=
  match (lo.extractLsb' 0 4).toNat with
  | 0 => some (.vaddI8x4 d a (lo.extractLsb' 5 7) (lo.getLsbD 4))
  | 1 => some (.vsubI8x4 d a (lo.extractLsb' 5 7) (lo.getLsbD 4))
  | 2 => some (.vaddsI8x4 d a (lo.extractLsb' 5 7) (lo.getLsbD 4))
  | 3 => some (.vsubsI8x4 d a (lo.extractLsb' 5 7) (lo.getLsbD 4))
  | 4 => some (.vminI8x4 d a (lo.extractLsb' 5 7) (lo.getLsbD 4))
  | 5 => some (.vmaxI8x4 d a (lo.extractLsb' 5 7) (lo.getLsbD 4))
  | 6 => some (.vminuI8x4 d a (lo.extractLsb' 5 7) (lo.getLsbD 4))
  | 7 => some (.vmaxuI8x4 d a (lo.extractLsb' 5 7) (lo.getLsbD 4))
  | 8 => some (.vdot4 d a (lo.extractLsb' 5 7) (lo.getLsbD 4))
  | 9 => some (.vdot4su d a (lo.extractLsb' 5 7) (lo.getLsbD 4))
  | 10 => some (.vabsdI8x4 d a (lo.extractLsb' 5 7) (lo.getLsbD 4))
  | 11 => some (.vavgI8x4 d a (lo.extractLsb' 5 7) (lo.getLsbD 4))
  | _ => none

/-- Major 0x32 (spec/10_encoding.md). -/
def decode32 (d a : Reg) (lo : BitVec 12) : Option Instr :=
  match (lo.extractLsb' 0 4).toNat with
  | 0 => some (.vaddBf16x2 d a (lo.extractLsb' 5 7) (lo.getLsbD 4))
  | 1 => some (.vsubBf16x2 d a (lo.extractLsb' 5 7) (lo.getLsbD 4))
  | 2 => some (.vmulBf16x2 d a (lo.extractLsb' 5 7) (lo.getLsbD 4))
  | 3 => some (.vfmaBf16x2 d a (lo.extractLsb' 5 7) (lo.getLsbD 4))
  | 4 => some (.vminBf16x2 d a (lo.extractLsb' 5 7) (lo.getLsbD 4))
  | 5 => some (.vmaxBf16x2 d a (lo.extractLsb' 5 7) (lo.getLsbD 4))
  | 6 => some (.vdot2 d a (lo.extractLsb' 5 7) (lo.getLsbD 4))
  | _ => none

/-- Major 0x33 (spec/10_encoding.md). -/
def decode33 (d a : Reg) (lo : BitVec 12) : Option Instr :=
  match (lo.extractLsb' 0 4).toNat with
  | 0 => some (.vaddF32 d a (lo.extractLsb' 5 7) (lo.getLsbD 4))
  | 1 => some (.vsubF32 d a (lo.extractLsb' 5 7) (lo.getLsbD 4))
  | 2 => some (.vmulF32 d a (lo.extractLsb' 5 7) (lo.getLsbD 4))
  | 3 => some (.vfmaF32 d a (lo.extractLsb' 5 7) (lo.getLsbD 4))
  | 4 => some (.vfmsF32 d a (lo.extractLsb' 5 7) (lo.getLsbD 4))
  | 5 => some (.vminF32 d a (lo.extractLsb' 5 7) (lo.getLsbD 4))
  | 6 => some (.vmaxF32 d a (lo.extractLsb' 5 7) (lo.getLsbD 4))
  | 7 => if lo.extractLsb' 5 7 == 0#7 then some (.vabsF32 d a (lo.getLsbD 4)) else none
  | 8 => if lo.extractLsb' 5 7 == 0#7 then some (.vnegF32 d a (lo.getLsbD 4)) else none
  | 9 => if lo.extractLsb' 5 7 == 0#7 then some (.frcpa d a (lo.getLsbD 4)) else none
  | 10 => if lo.extractLsb' 5 7 == 0#7 then some (.frsqa d a (lo.getLsbD 4)) else none
  | 11 => if lo.extractLsb' 5 7 == 0#7 then some (.fexp2a d a (lo.getLsbD 4)) else none
  | _ => none

/-- Major 0x34 (spec/10_encoding.md). -/
def decode34 (d a : Reg) (lo : BitVec 12) : Option Instr :=
  match (lo.extractLsb' 0 4).toNat with
  | 0 => if lo.extractLsb' 7 5 == 0#5 then some (.vcvtF32I32 d a (rmOf (lo.extractLsb' 5 2)) (lo.getLsbD 4)) else none
  | 1 => if lo.extractLsb' 7 5 == 0#5 then some (.vcvtI32F32 d a (rmOf (lo.extractLsb' 5 2)) (lo.getLsbD 4)) else none
  | 2 => if lo.extractLsb' 8 4 == 0#4 && lo.extractLsb' 5 2 == 0#2 then some (.vcvtF32Bf16 d a (lo.extractLsb' 7 1) (lo.getLsbD 4)) else none
  | 4 => if lo.extractLsb' 8 4 == 0#4 then some (.vcvtBf16F32 d a (lo.extractLsb' 7 1) (rmOf (lo.extractLsb' 5 2)) (lo.getLsbD 4)) else none
  | 5 => if lo.extractLsb' 10 2 == 0#2 && lo.extractLsb' 5 3 == 0#3 then some (.vcvtF32E4m3 d a (lo.extractLsb' 8 2) (lo.getLsbD 4)) else none
  | 6 => if lo.extractLsb' 10 2 == 0#2 && lo.extractLsb' 5 3 == 0#3 then some (.vcvtF32E5m2 d a (lo.extractLsb' 8 2) (lo.getLsbD 4)) else none
  | 7 => if lo.extractLsb' 10 2 == 0#2 && lo.extractLsb' 7 1 == 0#1 then some (.vcvtE4m3F32 d a (lo.extractLsb' 8 2) (rmOf (lo.extractLsb' 5 2)) (lo.getLsbD 4)) else none
  | 8 => if lo.extractLsb' 10 2 == 0#2 && lo.extractLsb' 7 1 == 0#1 then some (.vcvtE5m2F32 d a (lo.extractLsb' 8 2) (rmOf (lo.extractLsb' 5 2)) (lo.getLsbD 4)) else none
  | 9 => if lo.extractLsb' 10 2 == 0#2 && lo.extractLsb' 5 3 == 0#3 then some (.vcvtF32I8 d a (lo.extractLsb' 8 2) (lo.getLsbD 4)) else none
  | 10 => if lo.extractLsb' 10 2 == 0#2 && lo.extractLsb' 7 1 == 0#1 then some (.vcvtI8F32 d a (lo.extractLsb' 8 2) (rmOf (lo.extractLsb' 5 2)) (lo.getLsbD 4)) else none
  | _ => none

/-- Major 0x35 (spec/10_encoding.md). -/
def decode35 (d a : Reg) (lo : BitVec 12) : Option Instr :=
  match (lo.extractLsb' 1 3).toNat with
  | 0 => if lo.extractLsb' 5 4 == 0#4 && lo.extractLsb' 0 1 == 0#1 then some (.vld d a (lo.extractLsb' 9 3) (lo.getLsbD 4)) else none
  | 1 => if lo.extractLsb' 5 4 == 0#4 && lo.extractLsb' 0 1 == 0#1 then some (.vst d a (lo.extractLsb' 9 3) (lo.getLsbD 4)) else none
  | 2 => if lo.extractLsb' 0 1 == 0#1 then some (.vlds d a (lo.extractLsb' 9 3) (lo.extractLsb' 5 4) (lo.getLsbD 4)) else none
  | 3 => if lo.extractLsb' 0 1 == 0#1 then some (.vgath d a (lo.extractLsb' 9 3) (lo.extractLsb' 5 4) (lo.getLsbD 4)) else none
  | 4 => if lo.extractLsb' 0 1 == 0#1 then some (.vscat d a (lo.extractLsb' 9 3) (lo.extractLsb' 5 4) (lo.getLsbD 4)) else none
  | _ => none

/-- Major 0x36 (spec/10_encoding.md). -/
def decode36 (d a : Reg) (lo : BitVec 12) : Option Instr :=
  match (lo.extractLsb' 0 4).toNat with
  | 0 => if lo.extractLsb' 5 7 == 0#7 then some (.vbcast d a (lo.getLsbD 4)) else none
  | 1 => if lo.extractLsb' 9 3 == 0#3 && lo.extractLsb' 4 1 == 0#1 then some (.vextr d a (lo.extractLsb' 5 4)) else none
  | 2 => if lo.extractLsb' 9 3 == 0#3 then some (.vins d a (lo.extractLsb' 5 4) (lo.getLsbD 4)) else none
  | 3 => some (.vperm d a (lo.extractLsb' 5 7) (lo.getLsbD 4))
  | 4 => if lo.extractLsb' 9 3 == 0#3 then some (.vrot d a (lo.extractLsb' 5 4) (lo.getLsbD 4)) else none
  | 5 => if lo.extractLsb' 5 7 == 0#7 then some (.vredaddI32 d a (lo.getLsbD 4)) else none
  | 6 => if lo.extractLsb' 5 7 == 0#7 then some (.vredaddF32 d a (lo.getLsbD 4)) else none
  | 7 => if lo.extractLsb' 5 7 == 0#7 then some (.vredmaxI32 d a (lo.getLsbD 4)) else none
  | 8 => if lo.extractLsb' 5 7 == 0#7 then some (.vredmaxF32 d a (lo.getLsbD 4)) else none
  | 9 => if lo.extractLsb' 5 7 == 0#7 then some (.vscanI32 d a (lo.getLsbD 4)) else none
  | 10 => if lo.extractLsb' 5 7 == 0#7 then some (.vscanF32 d a (lo.getLsbD 4)) else none
  | _ => none

/-- Major 0x37 (spec/10_encoding.md). -/
def decode37 (d a : Reg) (lo : BitVec 12) : Option Instr :=
  match (lo.extractLsb' 0 4).toNat with
  | 0 => if d == 0#7 then some (.vcmpeqI32 a (lo.extractLsb' 5 7) (lo.getLsbD 4)) else none
  | 1 => if d == 0#7 then some (.vcmpltI32 a (lo.extractLsb' 5 7) (lo.getLsbD 4)) else none
  | 2 => if d == 0#7 then some (.vcmpltuI32 a (lo.extractLsb' 5 7) (lo.getLsbD 4)) else none
  | 3 => if d == 0#7 then some (.vcmpleI32 a (lo.extractLsb' 5 7) (lo.getLsbD 4)) else none
  | 4 => if d == 0#7 then some (.vcmpeqF32 a (lo.extractLsb' 5 7) (lo.getLsbD 4)) else none
  | 5 => if d == 0#7 then some (.vcmpltF32 a (lo.extractLsb' 5 7) (lo.getLsbD 4)) else none
  | 6 => if d == 0#7 then some (.vcmpleF32 a (lo.extractLsb' 5 7) (lo.getLsbD 4)) else none
  | 7 => if d == 0#7 then some (.vcmpunF32 a (lo.extractLsb' 5 7) (lo.getLsbD 4)) else none
  | 8 => if lo.extractLsb' 4 1 == 0#1 then some (.vsel d a (lo.extractLsb' 5 7)) else none
  | 9 => if a == 0#7 && lo.extractLsb' 4 8 == 0#8 then some (.vpmovToX d) else none
  | 10 => if d == 0#7 && lo.extractLsb' 4 8 == 0#8 then some (.vpmovToVp a) else none
  | _ => none

/-- Major 0x38 (spec/10_encoding.md). -/
def decode38 (d a : Reg) (lo : BitVec 12) : Option Instr :=
  match (lo.extractLsb' 0 5).toNat with
  | 0 => if lo.extractLsb' 5 7 == 0#7 then some (.jsub d a) else none
  | 1 => if lo.extractLsb' 5 7 == 0#7 then some (.jpoll d a) else none
  | 2 => if lo.extractLsb' 5 7 == 0#7 then some (.jwait d a) else none
  | 3 => if lo.extractLsb' 5 7 == 0#7 then some (.jcancel d a) else none
  | 4 => if lo.extractLsb' 5 7 == 0#7 then some (.mgang d a) else none
  | 5 => if d == 0#7 && a == 0#7 && lo.extractLsb' 5 7 == 0#7 then some .rdone else none
  | _ => none

/-- Major 0x39 (spec/10_encoding.md). -/
def decode39 (d a : Reg) (lo : BitVec 12) : Option Instr :=
  match (lo.extractLsb' 0 5).toNat with
  | 0 => some (.spawn d a (lo.extractLsb' 5 7))
  | 1 => if d == 0#7 && a == 0#7 && lo.extractLsb' 5 7 == 0#7 then some .exit else none
  | 2 => if d == 0#7 && a == 0#7 && lo.extractLsb' 5 7 == 0#7 then some .yield else none
  | 3 => if d == 0#7 && lo.extractLsb' 5 7 == 0#7 then some (.sleep a) else none
  | 4 => if lo.extractLsb' 5 7 == 0#7 then some (.wakeSlot d a) else none
  | 5 => if lo.extractLsb' 5 7 == 0#7 then some (.join d a) else none
  | 6 => if lo.extractLsb' 5 7 == 0#7 then some (.leave d a) else none
  | 7 => if lo.extractLsb' 5 7 == 0#7 then some (.gbar d a) else none
  | 8 => if lo.extractLsb' 5 7 == 0#7 then some (.gcnt d a) else none
  | 9 => if lo.extractLsb' 5 7 == 0#7 then some (.sluice d a) else none
  | 10 => if a == 0#7 && lo.extractLsb' 5 7 == 0#7 then some (.tid d) else none
  | 11 => if lo.extractLsb' 5 7 == 0#7 then some (.flaunch d a) else none
  | _ => none

/-- Major 0x3A (spec/10_encoding.md). -/
def decode3A (d a : Reg) (lo : BitVec 12) : Option Instr :=
  match (lo.extractLsb' 2 3).toNat with
  | 0 => some (.send d a (lo.extractLsb' 5 7) (lo.extractLsb' 0 2))
  | 1 => if lo.extractLsb' 5 7 == 0#7 && lo.extractLsb' 0 2 == 0#2 then some (.recv d a) else none
  | 2 => if lo.extractLsb' 0 2 == 0#2 then some (.recvt d a (lo.extractLsb' 5 7)) else none
  | 3 => if lo.extractLsb' 5 7 == 0#7 && lo.extractLsb' 0 2 == 0#2 then some (.rack d a) else none
  | 4 => if lo.extractLsb' 5 7 == 0#7 && lo.extractLsb' 0 2 == 0#2 then some (.epnew d a) else none
  | 5 => if lo.extractLsb' 5 7 == 0#7 && lo.extractLsb' 0 2 == 0#2 then some (.epfree d a) else none
  | 6 => if lo.extractLsb' 0 2 == 0#2 then some (.epmove d a (lo.extractLsb' 5 7)) else none
  | _ => none

/-- Major 0x3B (spec/10_encoding.md). -/
def decode3B (d a : Reg) (lo : BitVec 12) : Option Instr :=
  match (lo.extractLsb' 2 3).toNat with
  | 0 => some (.tcall d a (lo.extractLsb' 5 7) (lo.extractLsb' 0 2))
  | 1 => if lo.extractLsb' 5 7 == 0#7 then some (.tans d a (lo.extractLsb' 0 2)) else none
  | 2 => if d == 0#7 && a == 0#7 && lo.extractLsb' 5 7 == 0#7 && lo.extractLsb' 0 2 == 0#2 then some .tret else none
  | 3 => if lo.extractLsb' 5 7 == 0#7 && lo.extractLsb' 0 2 == 0#2 then some (.tnext d a) else none
  | 4 => if d == 0#7 && a == 0#7 && lo.extractLsb' 5 7 == 0#7 && lo.extractLsb' 0 2 == 0#2 then some .terr else none
  | 5 => if d == 0#7 && lo.extractLsb' 5 7 == 0#7 && lo.extractLsb' 0 2 == 0#2 then some (.trel a) else none
  | 6 => some (.tlook d a (lo.extractLsb' 5 7) (lo.extractLsb' 0 2))
  | 7 => if lo.extractLsb' 0 2 == 0#2 then some (.tctlStat d a (lo.extractLsb' 5 7)) else none
  | _ => none

/-- Major 0x3C (spec/10_encoding.md). -/
def decode3C (d a : Reg) (lo : BitVec 12) : Option Instr :=
  match (lo.extractLsb' 0 5).toNat with
  | 0 => some (.mfs d (a ++ lo.extractLsb' 5 7))
  | 1 => some (.mts d (a ++ lo.extractLsb' 5 7))
  | 2 => if d == 0#7 then some (.trap (a ++ lo.extractLsb' 5 7)) else none
  | 3 => if d == 0#7 && a == 0#7 && lo.extractLsb' 5 7 == 0#7 then some .eret else none
  | 4 => if d == 0#7 then some (.brk (a ++ lo.extractLsb' 5 7)) else none
  | 5 => if d.extractLsb' 3 4 == 0#4 && lo.extractLsb' 5 7 == 0#7 then some (.segld (d.extractLsb' 0 3) a) else none
  | 6 => if a.extractLsb' 3 4 == 0#4 && lo.extractLsb' 5 7 == 0#7 then some (.segrd d (a.extractLsb' 0 3)) else none
  | 7 => some (.pinv d a (lo.extractLsb' 5 7))
  | _ => none

/-- R159: the major opcode selects the table; a major that is not shown is reserved. -/
def decodeFields (op : BitVec 6) (d a : Reg) (lo : BitVec 12) : Option Instr :=
  match op.toNat with
  | 0x01 => decode01 d a lo
  | 0x02 => decode02 d a lo
  | 0x03 => some (.addi d a lo)
  | 0x04 => some (.andi d a lo)
  | 0x05 => some (.ori d a lo)
  | 0x06 => some (.xori d a lo)
  | 0x07 => some (.slti d a lo)
  | 0x08 => some (.sltiu d a lo)
  | 0x09 => decode09 d a lo
  | 0x0A => some (.movi d (a ++ lo))
  | 0x0B => if a.extractLsb' 6 1 == 0#1 then some (.movh d (a.extractLsb' 4 2) (a.extractLsb' 0 4 ++ lo)) else none
  | 0x0C => decode0C d a lo
  | 0x10 => some (.beq d a lo)
  | 0x11 => some (.bne d a lo)
  | 0x12 => some (.blt d a lo)
  | 0x13 => some (.bge d a lo)
  | 0x14 => some (.bltu d a lo)
  | 0x15 => some (.bgeu d a lo)
  | 0x16 => some (.jmp (d ++ a ++ lo))
  | 0x17 => some (.call d (a ++ lo))
  | 0x18 => decode18 d a lo
  | 0x19 => some (.bdnz d (a ++ lo))
  | 0x20 => some (.ldb d a (lo.extractLsb' 9 3) (lo.extractLsb' 0 9))
  | 0x21 => some (.ldbu d a (lo.extractLsb' 9 3) (lo.extractLsb' 0 9))
  | 0x22 => some (.ldh d a (lo.extractLsb' 9 3) (lo.extractLsb' 0 9))
  | 0x23 => some (.ldhu d a (lo.extractLsb' 9 3) (lo.extractLsb' 0 9))
  | 0x24 => some (.ldw d a (lo.extractLsb' 9 3) (lo.extractLsb' 0 9))
  | 0x25 => some (.ldwu d a (lo.extractLsb' 9 3) (lo.extractLsb' 0 9))
  | 0x26 => some (.ldd d a (lo.extractLsb' 9 3) (lo.extractLsb' 0 9))
  | 0x27 => some (.stb d a (lo.extractLsb' 9 3) (lo.extractLsb' 0 9))
  | 0x28 => some (.sth d a (lo.extractLsb' 9 3) (lo.extractLsb' 0 9))
  | 0x29 => some (.stw d a (lo.extractLsb' 9 3) (lo.extractLsb' 0 9))
  | 0x2A => some (.std d a (lo.extractLsb' 9 3) (lo.extractLsb' 0 9))
  | 0x2B => decode2B d a lo
  | 0x2C => decode2C d a lo
  | 0x2D => decode2D d a lo
  | 0x2E => decode2E d a lo
  | 0x2F => decode2F d a lo
  | 0x30 => decode30 d a lo
  | 0x31 => decode31 d a lo
  | 0x32 => decode32 d a lo
  | 0x33 => decode33 d a lo
  | 0x34 => decode34 d a lo
  | 0x35 => decode35 d a lo
  | 0x36 => decode36 d a lo
  | 0x37 => decode37 d a lo
  | 0x38 => decode38 d a lo
  | 0x39 => decode39 d a lo
  | 0x3A => decode3A d a lo
  | 0x3B => decode3B d a lo
  | 0x3C => decode3C d a lo
  | _ => none

/-- R158, steps 1 to 4: the instruction of a word, or none where the word is ILLEGAL-INSTRUCTION. Rows of
the table that share a word (TWREC, WAKE and TCTL choose their form by the request word) are decoded as
the first of them. -/
def decodeWord (w : BitVec 32) : Option Instr :=
  match decodeFields (w.extractLsb' 26 6) (w.extractLsb' 19 7) (w.extractLsb' 12 7) (w.extractLsb' 0 12) with
  | some i => if i.wf then some i else none
  | none => none

/-- Four bytes in storage order make a word, little-endian (R2). -/
def wordOfBytes : List Byte → Option (BitVec 32)
  | [b0, b1, b2, b3] => some (b3 ++ b2 ++ b1 ++ b0)
  | _ => none

/-- A word's four bytes in storage order (R2). -/
def bytesOfWord (w : BitVec 32) : List Byte :=
  [w.extractLsb' 0 8, w.extractLsb' 8 8, w.extractLsb' 16 8, w.extractLsb' 24 8]

/-- The instruction that four bytes hold. -/
def decodeBytes (bs : List Byte) : Option Instr :=
  match wordOfBytes bs with
  | some w => decodeWord w
  | none => none

/-- The decoder on an instruction numbered as the opcode table numbers its bits: every instruction is one
32-bit word, stored little-endian. -/
def decodeTableWord (nbits w : Nat) : Option Instr :=
  decodeBytes (bytesOfWord (BitVec.ofNat 32 (w % 2 ^ nbits)))

/-- The instruction that the decoder gives for the words of an instruction: of the rows that share a word,
the first. -/
def Instr.decodedAs : Instr → Instr
  | .twrecRerecord d a b => .twrecNew d a b
  | .wakeSwid d a => .wakeSlot d a
  | .wakeParked d a => .wakeSlot d a
  | .tctlFlushCallee d a b => .tctlStat d a b
  | .tctlFlushCid d a b => .tctlStat d a b
  | i => i

/-- The pipeline half that issues a word: true for the execute half (R159). -/
def executeHalf (w : BitVec 32) : Bool :=
  let op := (w.extractLsb' 26 6).toNat
  decide (op ≤ 0x0C) || (decide (0x30 ≤ op) && decide (op ≤ 0x37))

/-- The word of an instruction, from the tables of spec/10_encoding.md; an event has none. -/
def encode : Instr → Option (BitVec 32)
  | .add d a b => some (pack 0x01#6 d a (b ++ 0#5))
  | .sub d a b => some (pack 0x01#6 d a (b ++ 1#5))
  | .mul d a b => some (pack 0x01#6 d a (b ++ 2#5))
  | .mulh d a b => some (pack 0x01#6 d a (b ++ 3#5))
  | .mulhu d a b => some (pack 0x01#6 d a (b ++ 4#5))
  | .mulhsu d a b => some (pack 0x01#6 d a (b ++ 5#5))
  | .div d a b => some (pack 0x01#6 d a (b ++ 6#5))
  | .divu d a b => some (pack 0x01#6 d a (b ++ 7#5))
  | .rem d a b => some (pack 0x01#6 d a (b ++ 8#5))
  | .remu d a b => some (pack 0x01#6 d a (b ++ 9#5))
  | .and d a b => some (pack 0x01#6 d a (b ++ 10#5))
  | .or d a b => some (pack 0x01#6 d a (b ++ 11#5))
  | .xor d a b => some (pack 0x01#6 d a (b ++ 12#5))
  | .andn d a b => some (pack 0x01#6 d a (b ++ 13#5))
  | .orn d a b => some (pack 0x01#6 d a (b ++ 14#5))
  | .xnor d a b => some (pack 0x01#6 d a (b ++ 15#5))
  | .shl d a b => some (pack 0x01#6 d a (b ++ 16#5))
  | .shr d a b => some (pack 0x01#6 d a (b ++ 17#5))
  | .sra d a b => some (pack 0x01#6 d a (b ++ 18#5))
  | .rol d a b => some (pack 0x01#6 d a (b ++ 19#5))
  | .ror d a b => some (pack 0x01#6 d a (b ++ 20#5))
  | .min d a b => some (pack 0x01#6 d a (b ++ 21#5))
  | .max d a b => some (pack 0x01#6 d a (b ++ 22#5))
  | .minu d a b => some (pack 0x01#6 d a (b ++ 23#5))
  | .maxu d a b => some (pack 0x01#6 d a (b ++ 24#5))
  | .seq d a b => some (pack 0x01#6 d a (b ++ 25#5))
  | .sne d a b => some (pack 0x01#6 d a (b ++ 26#5))
  | .slt d a b => some (pack 0x01#6 d a (b ++ 27#5))
  | .sltu d a b => some (pack 0x01#6 d a (b ++ 28#5))
  | .sle d a b => some (pack 0x01#6 d a (b ++ 29#5))
  | .sleu d a b => some (pack 0x01#6 d a (b ++ 30#5))
  | .sel d a b => some (pack 0x01#6 d a (b ++ 31#5))
  | .clz d a => some (pack 0x02#6 d a 0#12)
  | .ctz d a => some (pack 0x02#6 d a 1#12)
  | .popc d a => some (pack 0x02#6 d a 2#12)
  | .brev d a => some (pack 0x02#6 d a 3#12)
  | .bswap d a => some (pack 0x02#6 d a 4#12)
  | .sextb d a => some (pack 0x02#6 d a 5#12)
  | .sexth d a => some (pack 0x02#6 d a 6#12)
  | .sextw d a => some (pack 0x02#6 d a 7#12)
  | .zextb d a => some (pack 0x02#6 d a 8#12)
  | .zexth d a => some (pack 0x02#6 d a 9#12)
  | .zextw d a => some (pack 0x02#6 d a 10#12)
  | .hash d a b => some (pack 0x02#6 d a (b ++ 11#5))
  | .addi d a i => some (pack 0x03#6 d a i)
  | .andi d a i => some (pack 0x04#6 d a i)
  | .ori d a i => some (pack 0x05#6 d a i)
  | .xori d a i => some (pack 0x06#6 d a i)
  | .slti d a i => some (pack 0x07#6 d a i)
  | .sltiu d a i => some (pack 0x08#6 d a i)
  | .shli d a s => some (pack 0x09#6 d a (0#6 ++ s))
  | .shri d a s => some (pack 0x09#6 d a (16#6 ++ s))
  | .srai d a s => some (pack 0x09#6 d a (32#6 ++ s))
  | .rori d a s => some (pack 0x09#6 d a (48#6 ++ s))
  | .movi d i => some (pack 0x0A#6 d (i.extractLsb' 12 7) (i.extractLsb' 0 12))
  | .movh d q v => some (pack 0x0B#6 d (0#1 ++ q ++ v.extractLsb' 12 4) (v.extractLsb' 0 12))
  | .bfx d a p w => some (pack 0x0C#6 d a (0#1 ++ p ++ w))
  | .bfi d a p w => some (pack 0x0C#6 d a (1#1 ++ p ++ w))
  | .beq a b i => some (pack 0x10#6 a b i)
  | .bne a b i => some (pack 0x11#6 a b i)
  | .blt a b i => some (pack 0x12#6 a b i)
  | .bge a b i => some (pack 0x13#6 a b i)
  | .bltu a b i => some (pack 0x14#6 a b i)
  | .bgeu a b i => some (pack 0x15#6 a b i)
  | .jmp i => some (pack 0x16#6 (i.extractLsb' 19 7) (i.extractLsb' 12 7) (i.extractLsb' 0 12))
  | .call d i => some (pack 0x17#6 d (i.extractLsb' 12 7) (i.extractLsb' 0 12))
  | .jr a => some (pack 0x18#6 0#7 a 0#12)
  | .callr d a => some (pack 0x18#6 d a 1#12)
  | .bdnz d i => some (pack 0x19#6 d (i.extractLsb' 12 7) (i.extractLsb' 0 12))
  | .ldb t a s o => some (pack 0x20#6 t a (s ++ o))
  | .ldbu t a s o => some (pack 0x21#6 t a (s ++ o))
  | .ldh t a s o => some (pack 0x22#6 t a (s ++ o))
  | .ldhu t a s o => some (pack 0x23#6 t a (s ++ o))
  | .ldw t a s o => some (pack 0x24#6 t a (s ++ o))
  | .ldwu t a s o => some (pack 0x25#6 t a (s ++ o))
  | .ldd t a s o => some (pack 0x26#6 t a (s ++ o))
  | .stb t a s o => some (pack 0x27#6 t a (s ++ o))
  | .sth t a s o => some (pack 0x28#6 t a (s ++ o))
  | .stw t a s o => some (pack 0x29#6 t a (s ++ o))
  | .std t a s o => some (pack 0x2A#6 t a (s ++ o))
  | .ldqw a s o => some (pack 0x2B#6 0#7 a (s ++ o))
  | .ldqd a s o => some (pack 0x2B#6 1#7 a (s ++ o))
  | .stqw a s o => some (pack 0x2B#6 2#7 a (s ++ o))
  | .stqd a s o => some (pack 0x2B#6 3#7 a (s ++ o))
  | .lda t a s z c k => some (pack 0x2C#6 t a (s ++ 0#2 ++ BitVec.ofBool z ++ scopeBits c ++ k))
  | .stl t a s z c k => some (pack 0x2C#6 t a (s ++ 1#2 ++ BitVec.ofBool z ++ scopeBits c ++ k))
  | .fence c => some (pack 0x2C#6 0#7 0#7 (4#6 ++ scopeBits c ++ 0#3))
  | .aadd d a z c r g => some (pack 0x2D#6 d a (0#4 ++ BitVec.ofBool z ++ scopeBits c ++ ordBits r ++ g))
  | .aand d a z c r g => some (pack 0x2D#6 d a (1#4 ++ BitVec.ofBool z ++ scopeBits c ++ ordBits r ++ g))
  | .aor d a z c r g => some (pack 0x2D#6 d a (2#4 ++ BitVec.ofBool z ++ scopeBits c ++ ordBits r ++ g))
  | .axor d a z c r g => some (pack 0x2D#6 d a (3#4 ++ BitVec.ofBool z ++ scopeBits c ++ ordBits r ++ g))
  | .amin d a z c r g => some (pack 0x2D#6 d a (4#4 ++ BitVec.ofBool z ++ scopeBits c ++ ordBits r ++ g))
  | .amax d a z c r g => some (pack 0x2D#6 d a (5#4 ++ BitVec.ofBool z ++ scopeBits c ++ ordBits r ++ g))
  | .aminu d a z c r g => some (pack 0x2D#6 d a (6#4 ++ BitVec.ofBool z ++ scopeBits c ++ ordBits r ++ g))
  | .amaxu d a z c r g => some (pack 0x2D#6 d a (7#4 ++ BitVec.ofBool z ++ scopeBits c ++ ordBits r ++ g))
  | .aswp d a z c r g => some (pack 0x2D#6 d a (8#4 ++ BitVec.ofBool z ++ scopeBits c ++ ordBits r ++ g))
  | .acas d a z c r g => some (pack 0x2D#6 d a (9#4 ++ BitVec.ofBool z ++ scopeBits c ++ ordBits r ++ g))
  | .strm d a b s => some (pack 0x2E#6 d a (b ++ s ++ 0#2))
  | .strx d a b s => some (pack 0x2E#6 d a (b ++ s ++ 1#2))
  | .strq d b => some (pack 0x2E#6 d 0#7 (b ++ 2#5))
  | .pref s a h => some (pack 0x2F#6 (0#4 ++ s) a (0#5 ++ h ++ 0#5))
  | .cflush s a => some (pack 0x2F#6 (0#4 ++ s) a 1#12)
  | .cinv s a => some (pack 0x2F#6 (0#4 ++ s) a 2#12)
  | .bsnmap d a b => some (pack 0x2F#6 d a (b ++ 8#5))
  | .bsnsync d a => some (pack 0x2F#6 d a 9#12)
  | .bsndropWb d a => some (pack 0x2F#6 d a 10#12)
  | .bsndropNw d a => some (pack 0x2F#6 d a 11#12)
  | .bsnqry d a => some (pack 0x2F#6 d a 12#12)
  | .twrecNew d a b => some (pack 0x2F#6 d a (b ++ 16#5))
  | .twrecRerecord d a b => some (pack 0x2F#6 d a (b ++ 16#5))
  | .twstep d a => some (pack 0x2F#6 d a 17#12)
  | .twend d a => some (pack 0x2F#6 d a 18#12)
  | .twstat d a => some (pack 0x2F#6 d a 19#12)
  | .twdrop d a => some (pack 0x2F#6 d a 20#12)
  | .vaddI32 d a b p => some (pack 0x30#6 d a (b ++ BitVec.ofBool p ++ 0#4))
  | .vsubI32 d a b p => some (pack 0x30#6 d a (b ++ BitVec.ofBool p ++ 1#4))
  | .vmulI32 d a b p => some (pack 0x30#6 d a (b ++ BitVec.ofBool p ++ 2#4))
  | .vmulhI32 d a b p => some (pack 0x30#6 d a (b ++ BitVec.ofBool p ++ 3#4))
  | .vminI32 d a b p => some (pack 0x30#6 d a (b ++ BitVec.ofBool p ++ 4#4))
  | .vmaxI32 d a b p => some (pack 0x30#6 d a (b ++ BitVec.ofBool p ++ 5#4))
  | .vminuI32 d a b p => some (pack 0x30#6 d a (b ++ BitVec.ofBool p ++ 6#4))
  | .vmaxuI32 d a b p => some (pack 0x30#6 d a (b ++ BitVec.ofBool p ++ 7#4))
  | .vandI32 d a b p => some (pack 0x30#6 d a (b ++ BitVec.ofBool p ++ 8#4))
  | .vorI32 d a b p => some (pack 0x30#6 d a (b ++ BitVec.ofBool p ++ 9#4))
  | .vxorI32 d a b p => some (pack 0x30#6 d a (b ++ BitVec.ofBool p ++ 10#4))
  | .vshlI32 d a b p => some (pack 0x30#6 d a (b ++ BitVec.ofBool p ++ 11#4))
  | .vshrI32 d a b p => some (pack 0x30#6 d a (b ++ BitVec.ofBool p ++ 12#4))
  | .vsraI32 d a b p => some (pack 0x30#6 d a (b ++ BitVec.ofBool p ++ 13#4))
  | .vaddsI32 d a b p => some (pack 0x30#6 d a (b ++ BitVec.ofBool p ++ 14#4))
  | .vsubsI32 d a b p => some (pack 0x30#6 d a (b ++ BitVec.ofBool p ++ 15#4))
  | .vaddI8x4 d a b p => some (pack 0x31#6 d a (b ++ BitVec.ofBool p ++ 0#4))
  | .vsubI8x4 d a b p => some (pack 0x31#6 d a (b ++ BitVec.ofBool p ++ 1#4))
  | .vaddsI8x4 d a b p => some (pack 0x31#6 d a (b ++ BitVec.ofBool p ++ 2#4))
  | .vsubsI8x4 d a b p => some (pack 0x31#6 d a (b ++ BitVec.ofBool p ++ 3#4))
  | .vminI8x4 d a b p => some (pack 0x31#6 d a (b ++ BitVec.ofBool p ++ 4#4))
  | .vmaxI8x4 d a b p => some (pack 0x31#6 d a (b ++ BitVec.ofBool p ++ 5#4))
  | .vminuI8x4 d a b p => some (pack 0x31#6 d a (b ++ BitVec.ofBool p ++ 6#4))
  | .vmaxuI8x4 d a b p => some (pack 0x31#6 d a (b ++ BitVec.ofBool p ++ 7#4))
  | .vdot4 d a b p => some (pack 0x31#6 d a (b ++ BitVec.ofBool p ++ 8#4))
  | .vdot4su d a b p => some (pack 0x31#6 d a (b ++ BitVec.ofBool p ++ 9#4))
  | .vabsdI8x4 d a b p => some (pack 0x31#6 d a (b ++ BitVec.ofBool p ++ 10#4))
  | .vavgI8x4 d a b p => some (pack 0x31#6 d a (b ++ BitVec.ofBool p ++ 11#4))
  | .vaddBf16x2 d a b p => some (pack 0x32#6 d a (b ++ BitVec.ofBool p ++ 0#4))
  | .vsubBf16x2 d a b p => some (pack 0x32#6 d a (b ++ BitVec.ofBool p ++ 1#4))
  | .vmulBf16x2 d a b p => some (pack 0x32#6 d a (b ++ BitVec.ofBool p ++ 2#4))
  | .vfmaBf16x2 d a b p => some (pack 0x32#6 d a (b ++ BitVec.ofBool p ++ 3#4))
  | .vminBf16x2 d a b p => some (pack 0x32#6 d a (b ++ BitVec.ofBool p ++ 4#4))
  | .vmaxBf16x2 d a b p => some (pack 0x32#6 d a (b ++ BitVec.ofBool p ++ 5#4))
  | .vdot2 d a b p => some (pack 0x32#6 d a (b ++ BitVec.ofBool p ++ 6#4))
  | .vaddF32 d a b p => some (pack 0x33#6 d a (b ++ BitVec.ofBool p ++ 0#4))
  | .vsubF32 d a b p => some (pack 0x33#6 d a (b ++ BitVec.ofBool p ++ 1#4))
  | .vmulF32 d a b p => some (pack 0x33#6 d a (b ++ BitVec.ofBool p ++ 2#4))
  | .vfmaF32 d a b p => some (pack 0x33#6 d a (b ++ BitVec.ofBool p ++ 3#4))
  | .vfmsF32 d a b p => some (pack 0x33#6 d a (b ++ BitVec.ofBool p ++ 4#4))
  | .vminF32 d a b p => some (pack 0x33#6 d a (b ++ BitVec.ofBool p ++ 5#4))
  | .vmaxF32 d a b p => some (pack 0x33#6 d a (b ++ BitVec.ofBool p ++ 6#4))
  | .vabsF32 d a p => some (pack 0x33#6 d a (0#7 ++ BitVec.ofBool p ++ 7#4))
  | .vnegF32 d a p => some (pack 0x33#6 d a (0#7 ++ BitVec.ofBool p ++ 8#4))
  | .frcpa d a p => some (pack 0x33#6 d a (0#7 ++ BitVec.ofBool p ++ 9#4))
  | .frsqa d a p => some (pack 0x33#6 d a (0#7 ++ BitVec.ofBool p ++ 10#4))
  | .fexp2a d a p => some (pack 0x33#6 d a (0#7 ++ BitVec.ofBool p ++ 11#4))
  | .vcvtF32I32 d a r p => some (pack 0x34#6 d a (0#5 ++ rmBits r ++ BitVec.ofBool p ++ 0#4))
  | .vcvtI32F32 d a r p => some (pack 0x34#6 d a (0#5 ++ rmBits r ++ BitVec.ofBool p ++ 1#4))
  | .vcvtF32Bf16 d a h p => some (pack 0x34#6 d a (0#4 ++ h ++ 0#2 ++ BitVec.ofBool p ++ 2#4))
  | .vcvtBf16F32 d a h r p => some (pack 0x34#6 d a (0#4 ++ h ++ rmBits r ++ BitVec.ofBool p ++ 4#4))
  | .vcvtF32E4m3 d a s p => some (pack 0x34#6 d a (0#2 ++ s ++ 0#3 ++ BitVec.ofBool p ++ 5#4))
  | .vcvtF32E5m2 d a s p => some (pack 0x34#6 d a (0#2 ++ s ++ 0#3 ++ BitVec.ofBool p ++ 6#4))
  | .vcvtE4m3F32 d a s r p => some (pack 0x34#6 d a (0#2 ++ s ++ 0#1 ++ rmBits r ++ BitVec.ofBool p ++ 7#4))
  | .vcvtE5m2F32 d a s r p => some (pack 0x34#6 d a (0#2 ++ s ++ 0#1 ++ rmBits r ++ BitVec.ofBool p ++ 8#4))
  | .vcvtF32I8 d a s p => some (pack 0x34#6 d a (0#2 ++ s ++ 0#3 ++ BitVec.ofBool p ++ 9#4))
  | .vcvtI8F32 d a s r p => some (pack 0x34#6 d a (0#2 ++ s ++ 0#1 ++ rmBits r ++ BitVec.ofBool p ++ 10#4))
  | .vld d a s p => some (pack 0x35#6 d a (s ++ 0#4 ++ BitVec.ofBool p ++ 0#4))
  | .vst d a s p => some (pack 0x35#6 d a (s ++ 0#4 ++ BitVec.ofBool p ++ 2#4))
  | .vlds d a s x p => some (pack 0x35#6 d a (s ++ x ++ BitVec.ofBool p ++ 4#4))
  | .vgath d a s x p => some (pack 0x35#6 d a (s ++ x ++ BitVec.ofBool p ++ 6#4))
  | .vscat d a s x p => some (pack 0x35#6 d a (s ++ x ++ BitVec.ofBool p ++ 8#4))
  | .vbcast d a p => some (pack 0x36#6 d a (0#7 ++ BitVec.ofBool p ++ 0#4))
  | .vextr d a l => some (pack 0x36#6 d a (0#3 ++ l ++ 1#5))
  | .vins d a l p => some (pack 0x36#6 d a (0#3 ++ l ++ BitVec.ofBool p ++ 2#4))
  | .vperm d a b p => some (pack 0x36#6 d a (b ++ BitVec.ofBool p ++ 3#4))
  | .vrot d a k p => some (pack 0x36#6 d a (0#3 ++ k ++ BitVec.ofBool p ++ 4#4))
  | .vredaddI32 d a p => some (pack 0x36#6 d a (0#7 ++ BitVec.ofBool p ++ 5#4))
  | .vredaddF32 d a p => some (pack 0x36#6 d a (0#7 ++ BitVec.ofBool p ++ 6#4))
  | .vredmaxI32 d a p => some (pack 0x36#6 d a (0#7 ++ BitVec.ofBool p ++ 7#4))
  | .vredmaxF32 d a p => some (pack 0x36#6 d a (0#7 ++ BitVec.ofBool p ++ 8#4))
  | .vscanI32 d a p => some (pack 0x36#6 d a (0#7 ++ BitVec.ofBool p ++ 9#4))
  | .vscanF32 d a p => some (pack 0x36#6 d a (0#7 ++ BitVec.ofBool p ++ 10#4))
  | .vcmpeqI32 a b p => some (pack 0x37#6 0#7 a (b ++ BitVec.ofBool p ++ 0#4))
  | .vcmpltI32 a b p => some (pack 0x37#6 0#7 a (b ++ BitVec.ofBool p ++ 1#4))
  | .vcmpltuI32 a b p => some (pack 0x37#6 0#7 a (b ++ BitVec.ofBool p ++ 2#4))
  | .vcmpleI32 a b p => some (pack 0x37#6 0#7 a (b ++ BitVec.ofBool p ++ 3#4))
  | .vcmpeqF32 a b p => some (pack 0x37#6 0#7 a (b ++ BitVec.ofBool p ++ 4#4))
  | .vcmpltF32 a b p => some (pack 0x37#6 0#7 a (b ++ BitVec.ofBool p ++ 5#4))
  | .vcmpleF32 a b p => some (pack 0x37#6 0#7 a (b ++ BitVec.ofBool p ++ 6#4))
  | .vcmpunF32 a b p => some (pack 0x37#6 0#7 a (b ++ BitVec.ofBool p ++ 7#4))
  | .vsel d a b => some (pack 0x37#6 d a (b ++ 8#5))
  | .vpmovToX d => some (pack 0x37#6 d 0#7 9#12)
  | .vpmovToVp a => some (pack 0x37#6 0#7 a 10#12)
  | .jsub d a => some (pack 0x38#6 d a 0#12)
  | .jpoll d a => some (pack 0x38#6 d a 1#12)
  | .jwait d a => some (pack 0x38#6 d a 2#12)
  | .jcancel d a => some (pack 0x38#6 d a 3#12)
  | .mgang d a => some (pack 0x38#6 d a 4#12)
  | .rdone => some (pack 0x38#6 0#7 0#7 5#12)
  | .spawn d a b => some (pack 0x39#6 d a (b ++ 0#5))
  | .exit => some (pack 0x39#6 0#7 0#7 1#12)
  | .yield => some (pack 0x39#6 0#7 0#7 2#12)
  | .sleep a => some (pack 0x39#6 0#7 a 3#12)
  | .wakeSlot d a => some (pack 0x39#6 d a 4#12)
  | .wakeSwid d a => some (pack 0x39#6 d a 4#12)
  | .wakeParked d a => some (pack 0x39#6 d a 4#12)
  | .join d a => some (pack 0x39#6 d a 5#12)
  | .leave d a => some (pack 0x39#6 d a 6#12)
  | .gbar d a => some (pack 0x39#6 d a 7#12)
  | .gcnt d a => some (pack 0x39#6 d a 8#12)
  | .sluice d a => some (pack 0x39#6 d a 9#12)
  | .tid d => some (pack 0x39#6 d 0#7 10#12)
  | .flaunch d a => some (pack 0x39#6 d a 11#12)
  | .send d a b n => some (pack 0x3A#6 d a (b ++ 0#3 ++ n))
  | .recv d a => some (pack 0x3A#6 d a 4#12)
  | .recvt d a b => some (pack 0x3A#6 d a (b ++ 8#5))
  | .rack d a => some (pack 0x3A#6 d a 12#12)
  | .epnew d a => some (pack 0x3A#6 d a 16#12)
  | .epfree d a => some (pack 0x3A#6 d a 20#12)
  | .epmove d a b => some (pack 0x3A#6 d a (b ++ 24#5))
  | .tcall d a b n => some (pack 0x3B#6 d a (b ++ 0#3 ++ n))
  | .tans d a n => some (pack 0x3B#6 d a (1#10 ++ n))
  | .tret => some (pack 0x3B#6 0#7 0#7 8#12)
  | .tnext d a => some (pack 0x3B#6 d a 12#12)
  | .terr => some (pack 0x3B#6 0#7 0#7 16#12)
  | .trel a => some (pack 0x3B#6 0#7 a 20#12)
  | .tlook d a b n => some (pack 0x3B#6 d a (b ++ 6#3 ++ n))
  | .tctlStat d a b => some (pack 0x3B#6 d a (b ++ 28#5))
  | .tctlFlushCallee d a b => some (pack 0x3B#6 d a (b ++ 28#5))
  | .tctlFlushCid d a b => some (pack 0x3B#6 d a (b ++ 28#5))
  | .mfs d k => some (pack 0x3C#6 d (k.extractLsb' 7 7) (k.extractLsb' 0 7 ++ 0#5))
  | .mts d k => some (pack 0x3C#6 d (k.extractLsb' 7 7) (k.extractLsb' 0 7 ++ 1#5))
  | .trap k => some (pack 0x3C#6 0#7 (k.extractLsb' 7 7) (k.extractLsb' 0 7 ++ 2#5))
  | .eret => some (pack 0x3C#6 0#7 0#7 3#12)
  | .brk k => some (pack 0x3C#6 0#7 (k.extractLsb' 7 7) (k.extractLsb' 0 7 ++ 4#5))
  | .segld s a => some (pack 0x3C#6 (0#4 ++ s) a 5#12)
  | .segrd d s => some (pack 0x3C#6 d (0#4 ++ s) 6#12)
  | .pinv d a b => some (pack 0x3C#6 d a (b ++ 7#5))
  | .asyncTrapDelivery _ => none
  | .operationResult _ _ => none
  | .loadDataArrives _ _ _ _ => none
  | .storeDrain _ => none
  | .storeAck _ _ _ _ => none
  | .hostDone _ => none
  | .requestAtHome _ _ => none
  | .memoryReplyAtHome _ _ _ => none
  | .memoryControllerRequest _ _ _ => none
  | .hotnessIntervalEnd _ => none
  | .mgHotctlWrite _ => none
  | .l1FillLands _ _ _ _ _ => none
  | .invalidationProbe _ _ _ _ => none
  | .probeAckAtHome _ _ _ _ => none
  | .towArrivesL1 _ _ _ _ _ _ => none
  | .towArrivesBasin _ _ _ _ _ _ => none
  | .towAck _ _ _ => none
  | .towUseReport _ _ _ => none
  | .stepMessage _ _ _ => none
  | .remoteAccessArrival _ => none
  | .domAccessArrival _ _ _ => none
  | .domainTimeout _ => none
  | .basinFillLands _ _ _ _ _ => none
  | .basinInvalidationProbe _ _ _ _ _ _ _ _ => none
  | .recallProbe _ _ _ _ _ _ => none
  | .writeBackMessage _ _ => none
  | .writeBackAck _ _ _ _ _ _ _ _ => none
  | .hostMemrdShared _ _ _ _ => none
  | .hostMemrdOwn _ _ _ _ => none
  | .hostMemwr _ _ _ _ _ _ => none
  | .hostMeminv _ _ _ _ => none
  | .hostMemspecrd _ _ _ _ => none
  | .backInvalidationResponse _ _ _ _ _ => none
  | .walkComplete _ _ _ => none
  | .faultQueueRetry _ => none
  | .pinvAccept _ _ _ _ => none
  | .spawnArrival _ => none
  | .slotGrant _ => none
  | .saveReported _ => none
  | .forcedSave _ => none
  | .sleepLimit _ => none
  | .recvtLimit _ => none
  | .sluiceTimeout _ _ _ => none
  | .inboxDelivery _ _ => none
  | .messageDelivery _ => none
  | .tsTchgWrite _ _ => none
  | .tsJrelWrite _ _ => none
  | .tsEwakeWrite _ => none
  | .mtCtx _ _ => none
  | .mtTern _ _ => none
  | .mtBooth _ _ => none
  | .mtZero _ _ => none
  | .mtDrain _ _ => none
  | .cpCopy _ _ => none
  | .cpFill _ _ => none
  | .cpGath _ _ => none
  | .cpScat _ _ => none
  | .cpRed _ _ => none
  | .cpAr _ _ => none
  | .cpBcast _ _ => none
  | .copyWriteAck _ _ _ _ _ _ => none
  | .ringStep _ _ => none
  | .rowDrain _ _ _ => none
  | .rowHandlerStart _ => none
  | .jobPreemption _ _ => none
  | .jobResume _ _ => none
  | .collectiveMatch _ _ _ => none
  | .collectiveTimeout _ _ => none
  | .snapshotRestore _ _ => none
  | .hostRingSlot _ => none
  | .counterPoll _ => none
  | .launchPlacement _ => none
  | .flotillaRetirement _ => none
  | .doorbellTail _ _ => none
  | .doorbellRerrClear _ _ => none
  | .partCreate _ => none
  | .partDestroy _ => none
  | .vfBind _ _ => none
  | .flushCommon => none
  | .domainSet _ _ => none
  | .vfEnableClear => none
  | .functionLevelReset _ => none
  | .vfEnableSet => none
  | .attestationReport _ => none
  | .aqueductPortFailure _ => none
  | .cxlResponseTimeout _ _ _ _ => none
  | .marchTestComplete _ _ _ _ _ _ => none
  | .reset => none
  | .calibrationComplete _ _ _ _ _ => none
  | .memoryInitComplete => none
  | .zeroingComplete => none
  | .powerLimit => none
  | .thermalShutdown => none
  | .chipScratchpadAccess _ => none
  | .barWindowAccess _ _ _ => none
  | .slotLending _ => none

end Sys2Proof
end

