-- ==== Sys2Proof/Config.lean ====
section
/-! DEFINITION. What an implementation of the ZA940 fixes, and the free values: constants with no body, so
that nothing can be proved of their value. -/

namespace Sys2Proof.Config

/-- The value of an open result, drawn with the counter `fresh` of the state (log entry 10).
(DESIGN CHOICE, log entry 10) -/
opaque freeValue : Nat → Word

/-- How many bytes the memory expanders behind a root port hold (R365: a window is populated to the size of
its expanders). (DEDUCED, log entry 35) -/
opaque expanderBytes : Nat → Nat

/-- The security version held in a fuse, by number (R395). (DESIGN CHOICE, log entry 37) -/
opaque fuseVersion : Nat → BitVec 32

/-- The device's serial number (R395). (DESIGN CHOICE, log entry 37) -/
opaque deviceSerial : BitVec 128

/-- The device identity key, provisioned at manufacture: its two secret seeds and its public one (R395).
(DESIGN CHOICE, log entry 37) -/
opaque identityKey : BitVec 256 × BitVec 256 × BitVec 256

/-- The randomness of a report's signature, by the words that are signed (R395). (DESIGN CHOICE, log entry 37) -/
opaque signatureRandom : List Word → BitVec 256

/-- The public key, of 64 bytes, by which firmware images are verified (R395). (DESIGN CHOICE, log entry 37) -/
opaque firmwareKey : BitVec 512

/-- How many spare rows a structure has, by its code STR (R393). (DESIGN CHOICE, log entry 39) -/
opaque spareRows : Nat → Nat

/-- The Aqueduct port that the route to a device uses while every port is up, and the choice of another when a port fails
(R387). (DESIGN CHOICE, log entry 16) -/
opaque routePort : Nat → Nat

/-- The image of the boot ROM (R395). (DESIGN CHOICE, log entry 37) -/
opaque bootRom : List Byte

end Sys2Proof.Config
end

