-- ==== Sys2Proof/Machine/State.lean ====
section
/-! DEFINITION. The whole state of the ZA940 as plain data, and the state right after reset.
Every part is named after the spec's own part, with the rule that gives it. -/

namespace Sys2Proof.Machine

/-- Why the machine stops. Each constructor's docstring says who raises it, and whether that is safe. -/
inductive Fault where
  /-- Raised by `step` once the package has stopped every clock at 105 degrees (R396, THERMAL_SHUTDOWN):
  nothing issues after it. Safe: nothing is claimed of a stopped package. -/
  | clocksStopped
  deriving DecidableEq, Repr

/-- Why the model gives no meaning. -/
inductive Refusal where
  /-- Raised by an arm of `exec` whose instruction has no meaning in the model yet. Safe. -/
  | notModelled (mnemonic : String)
  deriving DecidableEq, Repr

/-- A sparse table keyed by numbers, keys strictly rising; what an unlisted key stands for is the
table's own default. -/
abbrev NMap (α : Type) := List (Nat × α)

/-- The storage of the package, one list of cells in canonical form. -/
abbrev Memory := List Host.Cell

/-- The privilege levels of R350. -/
inductive Level where
  | u | s | m
  deriving DecidableEq, Repr

/-- A segment descriptor, words s0 and s1 (R17). -/
structure Seg where
  s0 : Word
  s1 : Word
  deriving DecidableEq, Repr

/-- A place of the load-data queue: the queue load's number, and its value once arrived (R83). -/
structure QLoad where
  tx : Nat
  val : Option Word
  deriving DecidableEq, Repr

/-- An unpaired address of a queue store (R84). -/
structure QAddr where
  kind : Kind
  tgt : Nat
  addr : Nat
  size : Nat
  deriving DecidableEq, Repr

/-- The three queues of one privilege level (R86). -/
structure Queues where
  ld : List QLoad
  sd : List Word
  addrs : List QAddr
  deriving DecidableEq, Repr

/-- The empty queues of a new thread. -/
def Queues.empty : Queues := { ld := [], sd := [], addrs := [] }

/-- What stands in the place of a stream element that has been read or delivered (R185, R353). -/
inductive Elem where
  | coming (tx : Nat)                  -- asked for, not arrived
  | here (v : Word)
  | refused (rk who : Nat)
  | poisoned (v : Word)
  deriving DecidableEq, Repr

/-- The three kinds of bound stream (R184). -/
inductive StreamKind where
  | read | write | arrival
  deriving DecidableEq, Repr

/-- An element of a write stream held outside the store buffer (R185). -/
structure HeldStore where
  kind : Kind
  tgt : Nat
  addr : Nat
  size : Nat
  data : Word
  tx : Nat                            -- where its push stands among the thread's accesses
  deriving DecidableEq, Repr

/-- A bound entry of the stream table (R184) with what it has read ahead or holds. -/
structure Stream where
  kind : StreamKind
  esz : Nat
  sg : Nat
  cnt : Nat
  stride : BitVec 24
  job : Nat
  next : Word
  elems : List Elem
  held : List HeldStore
  deriving DecidableEq, Repr

/-- A producer frame (R317). `dead` is 0 while the frame is live, else the cause of R324. -/
structure Frame where
  die : Nat
  entry : Nat            -- the entry's DFN
  ret : Word
  d : Nat
  cursor : Word
  inherited : Bool
  dead : Nat
  deriving DecidableEq, Repr

/-- Where a load's value goes. -/
inductive Dest where
  | x (r size : Nat) (sgn : Bool)            -- a window register
  | ld (level : Level) (size : Nat) (sgn : Bool)   -- the load-data queue
  | v (n : Nat)                              -- a vector register
  | stream (q : Nat)                         -- a read-stream element
  | blk                                      -- a doubleword of a block that an instruction reads
  | discard                                  -- zr, or a dropped queue load
  deriving DecidableEq, Repr

/-- One access of a load: its number and the access, the vector lanes it serves with each lane's offset in
the access and its effective offset, and its answer once arrived. `fixed` marks bytes forwarded from the
thread's own store buffer (R88), which no probe discards. -/
structure Piece where
  acc : Access
  lanes : List (Nat × Nat × Word)
  reply : Option Reply
  fixed : Bool
  early : Bool := false               -- read before an earlier die-local load was delivered, and to be read again (R99)
  near : Bool := false                -- die-local as far as the core knows (R97)
  deriving DecidableEq, Repr

/-- A load, LDA, atomic, queue load, stream element or vector load whose data has not been delivered
(R182, R99). -/
structure Outst where
  tx : Nat
  dest : Dest
  pc : Word                                  -- the instruction's address, for TS.TADR (R351)
  va : Nat                                   -- the address formed by R20, for POISON (R352)
  pieces : List Piece
  atom : Bool                                -- an atomic
  dieLocal : Bool                            -- R97, R99; true while the homing is not known
  acq : Bool                                 -- an acquire: later accesses wait (R101)
  deriving DecidableEq, Repr

/-- A division or vector result on its way to its destination (R182, R198, R237). -/
structure Result where
  tx : Nat
  reg : Option (Nat × Word)                  -- a window register and its value
  vec : Option (Nat × List (Nat × Lane))     -- a vector register and its active lanes
  deriving DecidableEq, Repr

/-- A pending asynchronous trap (R353). -/
structure Async where
  cause : Nat
  tval : Word
  tadr : Word
  store : Bool                        -- POISON of a store performed at issue
  dest : Dest := .discard             -- the destination that waits until the trap is taken (R208)
  deriving DecidableEq, Repr

/-- What a thread in WAIT waits for (R183). `retry`: its next instruction has not issued and issues
again. `release`: its basins' dirty words have left (R65), and it goes on once the rest of its release's waits
are over: `seq` is the last store that its core had drained when the release first issued. The others: it waits
inside an instruction that has issued, and a step completes it. `tag` names the wait to the write-backs that it
awaits. -/
inductive Wait where
  | retry
  | fetch (tx : Nat)                  -- a retry whose fetch waits for its walk or its line (R110, R372)
  | touch (line : Nat)                -- a retry that waits for a basin fill of a storage line (R61)
  | entry                             -- until a miss-status entry or a walk is free for its access (R37, R372)
  | sleep
  | spawn (d : Reg)
  | jwait (d : Reg) (job : Nat)
  | mgang (d : Reg) (tag : Nat) (job : Option Nat)
  | join (d : Reg) (group : Nat)
  | gbar (d : Reg) (group : Nat) (scope : Scope) (gen : Nat)
  | sluice (d : Reg) (tree : Bool) (idx : Nat) (counted : Bool)
  | recv (d : Reg) (name : Nat)
  | tnext (d : Reg) (cursor : Word) (a : Nat)
  | basin (d : Option Reg) (bn : Option Nat) (bad tag : Nat)
  | towline (d : Reg) (handle : Nat) (left : Nat)
  | pinv (d : Reg) (left : Nat)
  | flush (tx : Nat)                  -- the CFLUSH's access (R221)
  | release (seq : BitVec 32) (tag : Nat)
  deriving DecidableEq, Repr

/-- The states of a resident thread (R175); SAVING is the thread's own mark `saving`. -/
inductive Status where
  | ready
  | wait (w : Wait)
  | parked
  deriving DecidableEq, Repr

/-- A fill's data kept for a touch that has waited for it: the storage line, the words that it stands for, and its bytes
(R61). -/
structure Landed where
  line : Nat
  mask : BitVec 32
  data : List Byte
  deriving DecidableEq, Repr

/-- A resident thread's state (R174). -/
structure Thread where
  pc : Word
  level : Level
  swid : Nat
  regs : List Word                    -- x0 upward, RSZ of them (R176)
  rbase : Nat
  lbase : Nat
  lsz : Nat
  vp : BitVec 16
  segs : List Seg                     -- sg0 to sg7
  qu : Queues
  qs : Queues
  qm : Queues
  streams : NMap Stream               -- the bound ones of q0 to q11
  frames : List Frame                 -- innermost first
  cursors : List Word                 -- the thread's cursor list (R318)
  hostPending : List Nat              -- R115: the accesses whose host-done is owed; the count is its length
  tvec : Word
  tpc : Word
  cause : Word
  tval : Word
  tadr : Word
  pp : Level
  inh : Bool
  frc : Bool
  spt : Word
  vrm : Word
  jsel : Word
  wakeBit : Bool
  groups : List Nat
  status : Status
  saving : Option Bool                -- SAVING; true when forced (R361)
  outs : List Outst
  results : List Result
  pend : List Async                   -- oldest first
  parked : List Access                -- accesses that fault; `phys` is the stage-2 IA + 1 of such a fault
  resume : Option Wait                -- the wait that a PARKED thread goes back to
  blk : List QLoad                    -- the block that the next instruction is reading (R149, R292, R301)
  landed : Option Landed              -- a fill's data kept for this thread's waiting touch (R61)
  stalled : List Access               -- its remote accesses that touched a line whose fill faulted (R62)
  kept : List (Reg × Word)            -- values that an instruction parked on a fault has popped (R155)
  pops : List (Reg × Word)            -- values that its waiting instruction has read, popped if it parks (R155)
  aside : List (Word × Level × List (Reg × Word)) := []  -- kept values of instructions that a trap came before: address, level
  relTags : List Nat := []            -- its releases whose write-backs may be in flight, left for a trap or not (R65, R115)
  handler : Option (Nat × Nat)        -- row handler: job and row (R271)
  flotilla : Nat
  seqno : Nat                         -- when it entered its present wait, for R359's order
  deriving DecidableEq, Repr

/-- An entry of the store buffer (R87): one scalar store, or the words of one line of a vector store,
or the entry a CFLUSH takes (R221). -/
structure SbEntry where
  slot : Nat
  kind : Kind
  tgt : Nat
  words : List (Nat × Nat × Word)     -- address, size, data
  flush : Bool
  tx : Nat := 0                       -- where it stands among its thread's accesses
  swid : Nat := 0                     -- its thread's identifier (R109)
  gone : Bool := false                -- its thread has ended
  near : Option Bool := none          -- die-local, as the core knew when it reached the head (R98)
  m : Bool := false                   -- issued in M (R55)
  deriving DecidableEq, Repr

/-- A journal entry in use (R210). `dieLocal` none: the homing is not known yet (R98). -/
structure JEntry where
  ref : Bool
  code : Nat
  size : Nat
  kind : Kind
  tgt : Nat
  seq : BitVec 32
  addr : Nat
  data : Word
  swid : Nat
  slot : Nat
  dieLocal : Option Bool
  reported : Bool
  gone : Bool := false                -- its thread has ended
  line : Option Nat := none           -- the physical line, once translated (R140)
  deriving DecidableEq, Repr

/-- The states of a basin descriptor (R58). -/
inductive BasinSt where
  | free | active | dropping
  deriving DecidableEq, Repr

/-- A basin descriptor (R58). -/
structure Basin where
  st : BasinSt
  clus : Bool
  cf : Bool
  ow : Bool
  sf : Bool
  gva : Nat
  sbase : Nat
  len : Nat
  deriving DecidableEq, Repr

/-- A basin line tag with B = 1 (R59), with its SENT and probed words. -/
structure LineTag where
  bn : Nat
  fp : Bool
  reg : Bool
  v : BitVec 32
  dm : BitVec 32
  sent : BitVec 32
  probed : BitVec 32
  tow : Option (Nat × Nat)            -- the tow mark: its towline and the line's home (R141)
  unreg : Bool := false               -- recalled while its fill is pending: that fill registers nothing (R68)
  ill : BitVec 32 := 0                -- absent words that the last fill brought poisoned (R391)
  deriving DecidableEq, Repr

/-- A basin write-back message in flight (R65): its words that are SENT still, the wait whose instruction sent it, and
the releases that await it too (R104). -/
structure WbFlight where
  tx : Nat
  bn : Nat
  clus : Bool
  sline : Nat
  mask : BitVec 32
  owner : Option Nat
  also : List Nat := []
  deriving DecidableEq, Repr

/-- A line of an L1 data cache (R37). -/
structure L1Line where
  line : Nat
  cid : Nat
  data : List Byte
  tow : Option (Nat × Nat)            -- the tow mark: its towline and the line's home (R140)
  bad : List Nat := []                -- its words that are poisoned (R389)
  deriving DecidableEq, Repr

/-- A load that awaits a miss-status entry's data. -/
structure Joined where
  slot : Nat
  tx : Nat
  off : Nat
  size : Nat
  addr : Nat
  deriving DecidableEq, Repr

/-- A miss-status entry (R37, R51). -/
structure Mshr where
  line : Nat
  cid : Nat
  probed : Bool
  joined : List Joined
  deriving DecidableEq, Repr

/-- A resolved operand of a command (R24, R267): the kind, target, address, and how far the segment
reaches. -/
structure Operand where
  kind : Kind
  tgt : Nat
  addr : Nat
  base : Nat
  limit : Nat
  deriving DecidableEq, Repr

/-- A core's matrix format context (R267). -/
structure MtCtx where
  wf : Nat
  sc : Bool
  ocv : Nat
  rm : Nat
  as_ : Operand
  ws : Operand
  harg : Nat
  hpc : Nat
  deriving DecidableEq, Repr

/-- The states of a job (R262). -/
inductive JobSt where
  | queued | gathering | running | stopped | reported
  deriving DecidableEq, Repr

/-- An expander's answer to an uncached read of a job: where, the bytes, and the offsets of those that are poisoned (R386). -/
structure ExtRead where
  phys : Nat
  bytes : List Byte
  bad : List Nat
  deriving DecidableEq, Repr

/-- A job of a cluster's queue or running (R258, R261). A copy's destination units are numbered on from barge to
barge: unit j of barge k is 65,536 k + j. -/
structure Job where
  id : Nat
  core : Nat                          -- owning core in the cluster
  slot : Nat                          -- the submitting slot
  flotilla : Nat
  c0 : Word
  c1 : Word
  c2 : Word
  c3 : Word
  ops : List Operand
  st : JobSt
  out : Nat                           -- OUT once it has stopped
  fe : Bool
  sat : Bool
  hk : Bool
  psn : Bool
  ctx : Option MtCtx
  step : Nat                          -- matrix: next step; copy: barge pointer P
  tiles : List (List Byte)            -- matrix: the round's tiles, by the slice that fetched them (R252)
  draining : Bool                     -- matrix: the tile's rows are being moved (R271)
  rows : List (Nat × Nat)             -- matrix: member and row moved to the drain buffer of this tile
  joined : List Nat                   -- members that have joined (R265)
  desc : List Word                    -- copy: the descriptor as read at start (R275)
  mask : List Nat                     -- copy: acknowledged units of barge P (M) and of later barges
  nextUnit : Nat                      -- copy: the next destination unit to write
  unacked : List Nat                  -- units written and not acknowledged
  lost : List Nat := []               -- units refused, or not made once the job has stopped (R125)
  flight : List (Nat × Nat × Word)    -- arrival stream: unit, element and value written, not acknowledged
  wrote : List (Nat × Nat) := []      -- arrival stream: the elements that each unit's writes have taken, or that were passed
  split : List Nat := []              -- arrival stream: units of which only some elements are written (R218)
  acked : List (Nat × Word)           -- arrival stream: elements acknowledged and not delivered
  delivered : Nat
  bound : Bool                        -- an arrival stream is bound to it
  peers : Option (List Peer)          -- domain: the other participants once matched (R281)
  hp : Nat                            -- host-done replies owed (R120)
  parked : List Access                -- accesses that fault; `phys` is the stage-2 IA + 1 of such a fault
  preempted : Bool
  aged : Bool := false                -- it has waited so long that it counts as PRI (R348)
  ended : Bool                        -- it makes no further step; its report waits for R122
  recorded : Bool                     -- its progress record, or its members' save records, are written, or none is due (R273, R278)
  taken : Bool                        -- its report has been taken
  cutOff : Bool := false              -- it met a failed port: only the domain timeout answers it (R387)
  resumed : Bool := false             -- its progress record has been read (R278)
  ext : List ExtRead := []            -- what expanders have answered for the step under way (R386)
  deriving DecidableEq, Repr

/-- A handler slot reserved by MGANG (R265) with what the handler will take from the thread (R271). -/
structure Reserved where
  slot : Nat
  job : Nat
  rsz : Nat
  lsz : Nat
  segs : List Seg
  level : Level
  spt : Word
  tvec : Word
  swid : Nat
  rbase : Nat
  lbase : Nat
  flotilla : Nat
  deriving DecidableEq, Repr

/-- A row in a drain buffer (R271): the job, the row number, its 64 converted values, and whether its
handler has started. -/
structure DrainRow where
  job : Nat
  x0 : Nat
  vals : List Word
  esz : Nat
  started : Bool
  deriving DecidableEq, Repr

/-- A creation in a spawn queue: a spawn, or a snapshot that the completion unit queued (R347). -/
inductive Queued where
  | spawn (q : SpawnReq)
  | snap (die idx : Nat)
  deriving DecidableEq, Repr

/-- A matrix slice's held accumulator set (R259); accumulators in row order, as integers for INT36 and
as encodings for E8M27. -/
structure Held where
  hv : Bool
  ht : Nat
  sc : Bool
  acc : NMap Nat                      -- 64 i + n to the 36-bit field; unlisted is 0
  deriving DecidableEq, Repr

/-- A slot's last issue: the picks that each half had made after it, and whether the execute half made it (R181, R182). -/
structure Issue where
  picksA : Nat
  picksE : Nat
  ex : Bool
  deriving DecidableEq, Repr

/-- What belongs to a core. -/
structure Core where
  sb : List SbEntry                   -- oldest first
  journal : NMap JEntry
  seq : BitVec 32
  inbox : List Word
  inboxOver : List Word               -- entries waiting in the message channel (R186)
  ibWait : List Nat                   -- slots waiting on ib, first come first
  spawnQ : List Queued
  aged : Bool                         -- the head of its spawn queue has waited its limit (R347)
  heldSnaps : List (Nat × Nat)
  goneOwed : List Nat := []           -- host-dones still owed for accesses of ended threads (R115, R345)
  goneAtoms : List Nat := []          -- die-local atomics of ended threads whose results have not returned (R98, R107)
  leftOver : List SbEntry             -- elements that ended threads' write streams held, still to enter (R185)
  basins : NMap Basin
  tags : NMap LineTag                 -- key: line of CORE, or 2048 + line of CLUS
  wbs : List WbFlight
  l1 : List L1Line                    -- most recently used first
  mshr : List Mshr                    -- oldest first
  rotA : Nat
  rotE : Nat
  picksA : Nat                        -- how often the access half has picked a slot
  picksE : Nat                        -- and the execute half
  issued : NMap Issue                 -- slot (0-63) to its last issue, for its turn spacing (R182)
  slc : Word
  slto : Word
  ydl : Word
  tchg : Bool
  fq : Word
  ctxa : Word
  dtv : Word
  mvec : Word
  sendQ : List Message
  held : Held
  ctx : Option MtCtx
  reserved : List Reserved
  drain : List DrainRow
  badRegs : List Nat := []            -- the poisoned words of its register file, by byte index (R389)
  deriving DecidableEq, Repr

/-- An open episode of a sluice (R298): the arrivals counted per core. -/
structure Episode where
  counts : NMap Nat
  deriving DecidableEq, Repr

/-- A final translation (R368, R370). -/
structure TlbEntry where
  cid : Nat
  va : Nat                            -- first address of the page
  size : Nat                          -- bytes
  pa : Nat
  ia : Nat                            -- first IA of the stage-2 page used
  iaSize : Nat
  r : Bool
  w : Bool
  x : Bool
  home : Option Nat
  cache : Nat
  tracked : Bool
  common : Bool
  deriving DecidableEq, Repr

/-- A page walk in flight (R372) and the accesses that joined it. -/
structure Walk where
  cid : Nat
  page : Nat                          -- VA / 64 KiB
  waiting : List Access
  stale : Bool
  deriving DecidableEq, Repr

/-- Who touches a basin word: a thread, or a remote or engine access, as the event that makes it (R61). -/
inductive Toucher where
  | slot (n : Nat)
  | event (e : Event)
  deriving DecidableEq, Repr

/-- A touch that waits for a fill of a storage line: the absent words that it waits for, and the landed bytes once the fill
has come (R61). -/
structure Touch where
  line : Nat
  who : Toucher
  mask : BitVec 32
  data : Option (List Byte)
  fresh : Bool := false               -- issued after a probe of its words: the pending fill is not for it (R69)
  deriving DecidableEq, Repr

/-- What belongs to a cluster. -/
structure Cluster where
  cid : Nat
  flotilla : Nat                      -- 0: none
  acc : BitVec 256
  msg : BitVec 256
  jobs : List Job
  jobCtr : Nat
  servedM : Nat
  servedC : Nat
  sluices : NMap Episode
  tlb : List TlbEntry                 -- most recently installed first
  walks : List Walk
  queued : List Access                -- misses that found 16 walks busy, or no free miss-status entry
  faulted : List Access               -- stores held on a translation that is not present (R209)
  held : List Access                  -- requests held behind one of them, same core, CID and 64 KiB page
  touches : List Touch                -- touches of its storage lines that wait for a fill, in issue order (R61)
  deriving DecidableEq, Repr

/-- A back-invalidation that the host has not answered (R119): the half, whether it asks to invalidate or
only for data, whether the line waits for it, and who gets a host-done reply for which access. -/
structure BackInv where
  half : Nat
  inv : Bool
  blocking : Bool
  done : Option (Agent × Nat)
  deriving DecidableEq, Repr

/-- A line at its home slice (R38, R39, R43, R110). `data` none: the line is not in the L2, and is known
only because something waits on it. -/
structure HomeLine where
  cid : Nat
  line : Nat
  way : Nat
  data : Option (List Byte)
  dirty : Bool
  mode : Nat                          -- 0 none, 1 pointers, 2 clusters
  ptrs : List Nat
  clus : List Nat
  hh0 : Nat                           -- 0 none, 1 shared, 2 owned
  hh1 : Nat
  filling : Bool                      -- a fill from memory is pending
  acks : Nat                          -- probe acknowledgements awaited
  dirtyHit : Bool
  memWait : Bool                      -- memory has not accepted an uncached write
  towing : Nat                        -- tow acknowledgements awaited
  evicting : Bool
  bi : List BackInv
  current : Option Access             -- the write being completed
  old : List Byte                     -- the bytes an atomic read
  hp : Bool                           -- its acknowledgement is marked HP (R115)
  bad : BitVec 32                     -- the words that its merge poisoned (R390)
  grant : Option (Nat × Nat)          -- a host half and the state it takes at completion
  tows : List (Nat × Nat × Nat)       -- tows to send at completion: handle, consumer and the page's cacheability
  lost : List Nat := []               -- its words that no response has brought: they are poisoned here alone (R386)
  transient : Bool := false           -- filled for an access to an uncached page: it leaves once that is served (R28)
  waiting : List Access               -- oldest first
  deriving DecidableEq, Repr

/-- A basin holder record (R60). -/
structure Holder where
  cid : Nat
  core : Nat
  clus : Bool
  line : Nat
  sline : Nat
  recalling : Bool
  deriving DecidableEq, Repr

/-- A towline record (R136) with its running count. -/
structure TowRec where
  handle : Nat
  wc : Nat
  prod : Nat
  cons : Nat
  ts : Bool
  line : Nat
  count : Nat
  sent : Bool                         -- a tow of it has left in this step
  filled : Bool := false              -- its consumer has made a demand fill of the line in this step (R138)
  deriving DecidableEq, Repr

/-- A tagged write of the open step, for R135: who wrote the line last, and how often. -/
structure StepWrite where
  handle : Nat
  line : Nat
  core : Nat
  count : Nat
  order : Nat
  deriving DecidableEq, Repr

/-- Where a slice stands in a towline's steps (R144): the recording step not open or open, a replaying step, one whose
departure is not decided yet, and FALLBACK. -/
inductive SliceStep where
  | closed | recording | replaying | deciding | fallback
  deriving DecidableEq, Repr

/-- What belongs to a core-side slice. -/
structure Slice where
  lines : List HomeLine
  plru : NMap (BitVec 16)
  vecs : List (Nat × Nat)             -- lines (CID, line) in vector mode, least recently allocated first
  noRoom : List Access                -- requests that wait for a way or a holder record
  holders : List Holder               -- least recently allocated first
  tows : List TowRec
  counts : NMap (Nat × Nat × Nat)     -- per handle: USED, WASTED, UNPREDICTED of the step
  writes : List StepWrite
  steps : NMap SliceStep              -- per handle; an unlisted one is closed
  dueTows : List (Nat × Nat × Nat × Nat × Nat)  -- tows due while their step is undecided: CID, line, handle, consumer, cacheability
  badTables : List Nat := []          -- the poisoned words of its tables, by byte index (R389, R393)
  deriving DecidableEq, Repr

/-- A group record in use (R293). -/
structure Group where
  cid : Nat
  mc : Nat
  ac : Nat
  gen : Nat
  deriving DecidableEq, Repr

/-- The states of an endpoint directory entry (R303). -/
inductive EpSt where
  | free | unplaced | placed | swapped | moved | exited
  deriving DecidableEq, Repr

/-- An endpoint directory entry (R300 to R303). -/
structure Endpoint where
  st : EpSt
  tag : Nat
  cid : Nat
  owner : Nat                         -- owner's SWID
  slot : Option Nat                   -- owner's slot while resident, its key while saved
  core : Nat                          -- the core of the ring
  local_ : Option Operand             -- the local ring
  ln : Nat
  overRing : Option Operand               -- the overflow ring
  on_ : Nat
  head : Nat                          -- HEAD at the ring's storage (R307)
  headCopy : Nat                      -- the directory's copy of it (R303)
  tail : Nat
  sent : List Nat                     -- the names, as sent, of the messages in the local ring, oldest first (R304)
  ovTail : Nat                        -- messages written to the overflow ring, modulo 2^32
  ovf : List Message                  -- messages in the overflow ring, oldest first
  stub : Nat                          -- the name a moved entry leads to
  deriving DecidableEq, Repr

/-- The states of a towline (R145). -/
inductive TowSt where
  | idle | recording | armed | replaying | fallback
  deriving DecidableEq, Repr

/-- A towline descriptor in use, AL = 1 (R132, R145, R151). -/
structure Tow where
  st : TowSt
  rp : Bool
  part : Bool
  dep : Bool
  thr : Nat
  step : Nat
  cid : Nat
  flotilla : Nat
  clusters : List Nat
  ranges : List (Nat × Nat)           -- first address and length
  last : Nat × Nat × Nat
  cum : Nat × Nat × Nat
  sum : Nat × Nat × Nat               -- the closing step's counts, as slices report them
  pending : Nat                       -- slices that have not reported
  deriving DecidableEq, Repr

/-- The states of an answer-table entry (R315). -/
inductive EntSt where
  | open_ | complete | failed
  deriving DecidableEq, Repr

/-- An answer-table entry that is not FREE (R315). -/
structure Entry where
  st : EntSt
  cid : Nat
  callee : Nat
  key : List Word
  slice : Nat
  set : Nat
  dfn : Nat
  grp : Nat
  answers : List (List Word)
  cur : Nat
  cause : Nat
  lru : Nat
  deriving DecidableEq, Repr

/-- A cursor record in use (R318). -/
structure Cursor where
  tag : Nat
  entry : Nat                         -- the entry's DFN
  pos : Nat
  failed : Bool
  cause : Nat
  used : Bool
  deriving DecidableEq, Repr

/-- A group record of the answer table (R329). -/
structure TGroup where
  p : Nat
  a : Nat
  deriving DecidableEq, Repr

/-- A snapshot (R326). -/
structure Snap where
  core : Nat
  pc : Word                           -- the address of the TNEXT
  d : Nat
  areg : Nat                          -- the TNEXT's field a
  regs : List Word
  lsz : Nat
  segs : List Seg
  vp : BitVec 16
  spt : Word
  vrm : Word
  tvec : Word
  level : Level
  swid : Nat
  flotilla : Nat
  frame : Frame
  cursor : Word
  entry : Nat
  pos : Nat
  runnable : Bool
  deriving DecidableEq, Repr

/-- The answer table of a die (R313 to R334). -/
structure Table where
  entries : List Entry
  dfn : Nat
  groups : NMap TGroup
  cursors : NMap Cursor
  snaps : NMap Snap
  evict : NMap Nat                    -- per CID: entries evicted since placement (R328)
  fails : NMap Nat                    -- per CID: groups failed since placement
  clock : Nat                         -- recency for LRU
  deriving DecidableEq, Repr

/-- An error record (R392). -/
structure ErrRec where
  typ : Nat
  str : Nat
  adr : Nat
  swid : Nat
  slot : Nat
  clu : Nat
  cid : Nat
  time : Word := 0                    -- TIME, stamped as the record is logged
  unit : Nat := 0                     -- the core, cluster or slice that the structure is of: no part of the record
  deriving DecidableEq, Repr

/-- A table pointer in a die's walk cache (R371): where the next table is, and for stage 1 the IA page that contains it. -/
structure WalkPtr where
  cid : Nat
  stage2 : Bool
  level : Nat
  prefix_ : Nat
  next : Nat
  nextPa : Nat
  iaPage : Nat                        -- its first IA
  iaSize : Nat
  common : Bool                       -- the next table lies in a common page (R31)
  deriving DecidableEq, Repr

/-- What belongs to a compute die. -/
structure Die where
  groups : NMap Group
  eps : NMap Endpoint
  tows : NMap Tow
  trees : NMap Episode
  treeOwner : NMap Nat                -- tree index to the flotilla that holds it
  walkCache : List WalkPtr
  table : Table
  tblArea : Word
  errlog : List ErrRec
  deriving DecidableEq, Repr

/-- A fault waiting for its queue (R356, R373). -/
structure FaultRec where
  hyper : Bool                        -- a record of the hypervisor queue
  told : Bool                         -- a stage-2 fault on the ring itself has been reported for it
  w0 : Word
  w1 : Word
  w2 : Word
  w3 : Word
  deriving DecidableEq, Repr

/-- A launch in a queue (R339): its identifier and descriptor words, and the thread table and segment
block once read (R344). -/
structure Launch where
  id : Nat
  desc : List Word
  threads : List (List Word)
  block : List Word
  ready : Bool := false               -- it has been found ready (R342)
  read : Bool
  deriving DecidableEq, Repr

/-- A partition (R381) with its launch queues (R339) and pending faults (R356). -/
structure Part where
  bw : Nat
  clusters : List Nat
  hbase : Nat
  hsize : Nat
  cbase : Nat
  csize : Nat
  t0 : Word
  t1 : Word
  fq : Word
  ctxa : Word
  dtv : Word
  rn : Nat
  rbase : Nat
  launchCtr : Nat
  wrapped : Bool
  queues : NMap (List Launch)
  head : Nat
  tail : Nat
  halted : Bool
  faults : List FaultRec
  deriving DecidableEq, Repr

/-- What a tenant change has saved of a core for a suspended flotilla (R361). -/
structure CoreShare where
  core : Nat
  slc : Word
  slto : Word
  inbox : List Word
  spawnQ : List Queued
  reserved : List Reserved
  timers : List (Bool × Nat) := []    -- the sluices, tree or not, whose timers run for it (R299)
  deriving DecidableEq, Repr

/-- A flotilla placed on clusters (R344, R345). -/
structure Flotilla where
  cid : Nat
  launch : Launch
  clusters : List Nat
  tree : Option Nat
  term : Bool
  sf : Bool
  suspended : Bool
  next : Option Nat                   -- tenant change: the flotilla or launch it hands over to
  entries : List (List Word)          -- table entries not created yet (tenant change)
  shares : List CoreShare
  sluices : NMap (NMap Episode)       -- cluster to its episodes, while suspended
  deriving DecidableEq, Repr

/-- A context in SAVED (R175, R359). -/
structure Saved where
  core : Nat
  slot : Nat
  thread : Thread
  vregs : List (Nat × Byte)           -- the lane window's bytes, by offset in it
  wakeDue : Bool                      -- its wait has ended: class 1 of R347
  woke : Nat := 0                     -- when, for the order of that class
  held : Bool                         -- kept by a tenant change until its flotilla returns
  deriving DecidableEq, Repr

/-- A memory controller's sketch and list (R53, R54). -/
structure HotCtrl where
  rows : NMap Nat                     -- 2048 j + index to the count
  cands : List (Nat × Nat × Nat)      -- page, estimate, CID
  seq : Nat                           -- the SEQ that it wrote last (R55)
  out : List Word                     -- the entries of the record that it is writing
  phase : Nat                         -- 0 idle; of a record, 1 the header is odd, 2 the entries are written
  deriving DecidableEq, Repr

/-- A line of a memory-side cache (R40). -/
structure MsLine where
  cid : Nat
  line : Nat
  data : List Byte
  dirty : Bool
  lost : List Nat := []               -- its words that are poisoned here alone (R389)
  deriving DecidableEq, Repr

/-- A virtual function (R379, R385). -/
structure Vf where
  part : Nat                          -- the bound partition's CID, 0 for none
  tail : Nat
  rerr : Bool
  halt : Bool
  haltRec : Word                      -- the record in the PF's doorbell page
  window : List ErrRec                -- the error window, newest last
  told : Nat := 0                     -- how many records have been copied to it
  deriving DecidableEq, Repr

/-- An attestation report (R395). -/
structure Report where
  nonce : BitVec 256
  serial : BitVec 128
  measures : List (BitVec 512)
  versions : List (BitVec 32)
  signature : Signature
  deriving DecidableEq, Repr

/-- A self-test under way (R393): the record that started it, and whether a spare row has taken the row's contents. -/
structure RowTest where
  str : Nat
  adr : Nat
  unit : Nat                          -- the core, cluster or slice whose row it is
  cid : Nat
  spare : Bool
  deriving DecidableEq, Repr

/-- What belongs to the package. -/
structure Pkg where
  ready : Bool
  phase : Nat
  zdone : Bool
  thr : Bool
  deg : Bool
  ue : Nat
  hotBase : Word
  hotCtl : Word
  ctrls : NMap HotCtrl
  mside : NMap (List MsLine)          -- the memory-side caches by HBM4E channel, most recently used first (R40)
  vfs : NMap Vf
  vfEnable : Bool
  mailCmd : Word                      -- the mailbox's command word, arguments and status word (R382)
  mailArgs : List Word
  mailbox : Word
  importArea : List Word              -- BAR0 0x4000 to 0x7FFF of the PF (R388)
  link0 : LinkMode
  link1 : LinkMode
  hdm1 : List (Nat × Nat)             -- the HDM ranges that firmware assigns to link 1 (R379)
  dev : Nat
  timeout : Nat
  imports : NMap (List (Nat × Nat))   -- source device to (source CID, local CID) pairs
  portsDown : List Nat
  routes : NMap Nat                   -- the ports of the devices whose routes have moved (R387)
  lostTx : List Nat                   -- DOM accesses that were outstanding on a failed port: only the timeout answers them
  tests : List RowTest                -- self-tests under way (R393)
  sparesUsed : NMap Nat               -- spare rows in use, by structure
  retired : NMap Nat                  -- cache ways retired, by structure and unit
  measures : List (BitVec 512)
  versions : List (BitVec 32)         -- of the images that run (R395)
  report : Option Report              -- the last attestation report
  clockSteps : Nat
  stopped : Bool
  deriving DecidableEq, Repr

/-- Which agent moves next: a slot issues, a happening in flight comes about, or something from
outside happens. -/
inductive Pick where
  | issue (slot : Nat)
  | due (k : Nat)
  | event (e : Event)
  | readAhead (slot q : Nat)          -- a read stream reads one element ahead (R185)
  deriving DecidableEq, Repr

/-- The whole package. -/
structure State where
  mem : Memory
  poison : List Nat
  threads : NMap Thread               -- by physical slot (R12)
  cores : NMap Core
  clusters : NMap Cluster
  slices : NMap Slice
  dies : NMap Die
  parts : NMap Part                   -- by CID
  flotillas : NMap Flotilla
  nextFlotilla : Nat
  saved : List Saved                  -- oldest first
  pkg : Pkg
  cur : Nat
  exHalf : Bool                       -- the execute half of the core that issued last has its turn
  turns : Nat                         -- instructions issued since the oldest limit began or the last ran out
  picks : List Pick
  due : List Event
  timers : List Event
  nextTx : Nat
  fresh : Nat
  unlogged : List Nat := []           -- granules of `poison` whose error no access has met yet (R390)
  deriving DecidableEq, Repr

/-- A core after reset and after a scrub (R181, R354, R384). -/
def Core.reset : Core :=
  { sb := [], journal := [], seq := 0, inbox := [], inboxOver := [], ibWait := [], spawnQ := [],
    aged := false, heldSnaps := [], leftOver := [], basins := [], tags := [], wbs := [], l1 := [], mshr := [], rotA := 63, rotE := 63,
    picksA := 0, picksE := 0, issued := [],
    slc := 0, slto := 0, ydl := 0, tchg := false, fq := 0, ctxa := 0, dtv := 0, mvec := 0, sendQ := [],
    held := { hv := false, ht := 0, sc := false, acc := [] }, ctx := none, reserved := [], drain := [] }

/-- A cluster after reset (R9, R25, R258). -/
def Cluster.reset : Cluster :=
  { cid := 0, flotilla := 0, acc := 0, msg := 0, jobs := [], jobCtr := 0, servedM := 7, servedC := 7,
    sluices := [], tlb := [], walks := [], queued := [], faulted := [], held := [], touches := [] }

/-- A slice after reset. -/
def Slice.reset : Slice :=
  { lines := [], plru := [], vecs := [], noRoom := [], holders := [], tows := [], counts := [], writes := [], steps := [],
    dueTows := [] }

/-- A die's answer table after start-up (R315: the creation counter starts at 1). -/
def Table.reset : Table :=
  { entries := [], dfn := 1, groups := [], cursors := [], snaps := [], evict := [], fails := [], clock := 0 }

/-- A die after reset. -/
def Die.reset : Die :=
  { groups := [], eps := [], tows := [], trees := [], treeOwner := [], walkCache := [], table := Table.reset,
    tblArea := 0, errlog := [] }

/-- The package after reset (R56, R387, R394). -/
def Pkg.reset : Pkg :=
  { ready := false, phase := 0, zdone := false, thr := false, deg := false, ue := 0, hotBase := 0,
    hotCtl := 0, ctrls := [], mside := [], vfs := [], vfEnable := false, mailCmd := 0,
    mailArgs := List.replicate 63 0, mailbox := 0, importArea := [], link0 := .untrained, link1 := .untrained, hdm1 := [],
    dev := 0, timeout := 1000, imports := [], portsDown := [], routes := [], lostTx := [], tests := [],
    sparesUsed := [], retired := [],
    measures := List.replicate 8 0, versions := [], report := none, clockSteps := 0, stopped := false }

/-- The machine right after reset: no partition, no thread, every store empty (R394). -/
def State.reset : State :=
  { mem := [], poison := [], threads := [], cores := [], clusters := [], slices := [], dies := [], parts := [],
    flotillas := [], nextFlotilla := 1, saved := [], pkg := Pkg.reset, cur := 0, exHalf := false, turns := 0, picks := [], due := [],
    timers := [], nextTx := 0, fresh := 0 }

end Sys2Proof.Machine
end

