-- ==== Sys2Proof/Machine/Base.lean ====
section
/-! DEFINITION. The plainest operations on the state: sparse tables, bytes of storage, the places that
the spaces of spec/02_address_spaces.md name, access to threads, cores and the other units, and the
posting of what is in flight. -/

namespace Sys2Proof.Machine

/-! ### Sparse tables -/

/-- The entry under a key. -/
def find {α : Type} : NMap α → Nat → Option α
  | [], _ => none
  | (j, v) :: m, k => if j = k then some v else find m k

/-- The table with an entry put under a key, keys kept rising. -/
def put {α : Type} : NMap α → Nat → α → NMap α
  | [], k, v => [(k, v)]
  | (j, u) :: m, k, v =>
    if k < j then (k, v) :: (j, u) :: m
    else if j = k then (k, v) :: m
    else (j, u) :: put m k v

/-- The table without a key. -/
def del {α : Type} : NMap α → Nat → NMap α
  | [], _ => []
  | (j, u) :: m, k => if j = k then del m k else (j, u) :: del m k

/-- The first of n numbers from k up that has a property. -/
def scan (p : Nat → Bool) : Nat → Nat → Option Nat
  | 0, _ => none
  | n + 1, k => if p k then some k else scan p n (k + 1)

/-- The lowest number below a bound that a table does not use. -/
def lowestFree {α : Type} (m : NMap α) (bound : Nat) : Option Nat := scan (fun k => (find m k).isNone) bound 0

/-- An item put into a list kept in order of a measure, after its equals. -/
def insertBy {α : Type} (f : α → Nat) (x : α) : List α → List α
  | [] => [x]
  | y :: ys => if f x < f y then x :: y :: ys else y :: insertBy f x ys

/-- A list sorted by a measure, stably. -/
def sortBy {α : Type} (f : α → Nat) (l : List α) : List α := l.foldl (fun acc x => insertBy f x acc) []

/-! ### Bytes -/

/-- The byte at a storage address; what is not listed reads 0 (R394). (DESIGN CHOICE, log entry 2) -/
def memByte (m : Memory) (a : Nat) : Byte := (find m a).getD 0

/-- Storage with one byte written; a zero is not listed. (DESIGN CHOICE, log entry 2) -/
def setByte (m : Memory) (a : Nat) (b : Byte) : Memory := if b = 0 then del m a else put m a b

/-- Consecutive bytes. -/
def readBytes (m : Memory) (a n : Nat) : List Byte := (List.range n).map fun i => memByte m (a + i)

/-- Consecutive bytes written from an address. -/
def writeBytes : Memory → Nat → List Byte → Memory
  | m, _, [] => m
  | m, a, b :: bs => writeBytes (setByte m a b) (a + 1) bs

/-- Bytes written at their own addresses. -/
def writeCells : Memory → List (Nat × Byte) → Memory
  | m, [] => m
  | m, (a, b) :: cs => writeCells (setByte m a b) cs

/-- The number that bytes hold, little-endian (R2). -/
def leNat : List Byte → Nat
  | [] => 0
  | b :: bs => b.toNat + 256 * leNat bs

/-- The low n bytes of a number, little-endian (R2). -/
def leBytes : Nat → Nat → List Byte
  | 0, _ => []
  | n + 1, v => BitVec.ofNat 8 v :: leBytes n (v / 256)

/-- The doubleword at a storage address. -/
def mem64 (m : Memory) (a : Nat) : Word := word (leNat (readBytes m a 8))

/-- A number of w bits sign-extended to 64. -/
def sextN (w v : Nat) : Word := ((BitVec.ofNat w v).signExtend 64)

/-- A memory is in canonical form: addresses strictly rising, no listed zero. -/
def Memory.wf : Memory → Bool
  | [] => true
  | [(_, b)] => b != 0
  | (a, b) :: (a', b') :: m => b != 0 && decide (a < a') && Memory.wf ((a', b') :: m)

/-! ### Identifiers (R8 to R12) -/

/-- The core of a physical slot. -/
def coreOf (slot : Nat) : Nat := slot / 64
/-- The cluster of a core. -/
def clusterOf (core : Nat) : Nat := core / 8
/-- The die of a core. -/
def dieOf (core : Nat) : Nat := core / 512
/-- The die of a cluster or of a slice. -/
def dieOfCluster (k : Nat) : Nat := k / 64

/-! ### Senders and receivers of messages (R49): a core, a slice, a cluster's shared memory, a copy unit, a matrix engine,
and what is outside the package, each as a number -/

/-- A core as a sender or receiver. -/
def nodeCore (c : Nat) : Nat := 8 * c
/-- A slice as a sender or receiver. -/
def nodeSlice (h : Nat) : Nat := 8 * h + 1
/-- A cluster's copy unit as a sender or receiver. -/
def nodeCopy (k : Nat) : Nat := 8 * k + 2
/-- A cluster's matrix engine as a sender or receiver. -/
def nodeMatrix (k : Nat) : Nat := 8 * k + 3
/-- A cluster's port and inboxes' own senders, one number for each unit code. -/
def nodeUnit (u : Nat) : Nat := 8 * u + 4
/-- Another device as a sender or receiver. -/
def nodeDevice (d : Nat) : Nat := 8 * d + 5

/-! ### Places of storage (R18): one address space for every store of the package -/

/-- Where the chip scratchpad begins. (DESIGN CHOICE, log entry 2) -/
def chipBase : Nat := 2 ^ 60
/-- Where the core scratchpads begin. (DESIGN CHOICE, log entry 2) -/
def coreBase : Nat := 2 ^ 61
/-- Where the cluster-shared memories begin. (DESIGN CHOICE, log entry 2) -/
def clusBase : Nat := 2 ^ 62
/-- Where the lane slices begin. (DESIGN CHOICE, log entry 2) -/
def laneBase : Nat := 2 ^ 63

/-- Byte a of a core's scratchpad. -/
def corePlace (core a : Nat) : Nat := coreBase + core * 2 ^ 18 + a
/-- Byte a of a cluster's shared memory. -/
def clusPlace (cluster a : Nat) : Nat := clusBase + cluster * 2 ^ 20 + a
/-- Byte a of a core's lane slices. -/
def lanePlace (core a : Nat) : Nat := laneBase + core * 2 ^ 15 + a

/-- The size of each kind's space (R18). -/
def kindSize : Kind → Nat
  | .null => 0
  | .lane => 2 ^ 15
  | .core => 2 ^ 18
  | .clus => 2 ^ 20
  | .chip => 2 ^ 27
  | .glob => 2 ^ 52
  | .remc => 3 * 2 ^ 20
  | .dom => 2 ^ 52

/-- The kind's code in a segment (R17). -/
def kindCode : Kind → Nat
  | .null => 0
  | .lane => 1
  | .core => 2
  | .clus => 3
  | .chip => 4
  | .glob => 5
  | .remc => 6
  | .dom => 7

/-- The kind of a code. -/
def kindOf (n : Nat) : Kind :=
  match n with
  | 1 => .lane
  | 2 => .core
  | 3 => .clus
  | 4 => .chip
  | 5 => .glob
  | 6 => .remc
  | 7 => .dom
  | _ => .null

/-- Whether an access to the kind is performed at issue (R78). -/
def atIssue : Kind → Bool
  | .lane => true
  | .core => true
  | .clus => true
  | _ => false

/-- The storage place of an explicit-level address, as the core sees it (R18, R35). (DESIGN CHOICE, log entry 2) -/
def place (core : Nat) (k : Kind) (tgt a : Nat) : Nat :=
  match k with
  | .lane => lanePlace core a
  | .core => corePlace core a
  | .clus => clusPlace (clusterOf core) a
  | .chip => chipBase + a
  | .remc =>
    if a < 0x200000 then corePlace (tgt * 8 + a / 2 ^ 18) (a % 2 ^ 18) else clusPlace tgt (a - 0x200000)
  | _ => a

/-- The slice that holds a chip-scratchpad byte (R18). -/
def chipSlice (a : Nat) : Nat := (a / 2 ^ 25) % 4 * 64 + (a / 128) % 64

/-! ### Units of the state -/

/-- The thread resident in a slot. -/
def thr (s : State) (slot : Nat) : Option Thread := find s.threads slot
/-- The state with a slot's thread replaced. -/
def setThr (s : State) (slot : Nat) (t : Thread) : State := { s with threads := put s.threads slot t }
/-- The state with a slot emptied. -/
def delThr (s : State) (slot : Nat) : State := { s with threads := del s.threads slot }
/-- The state with a resident thread changed. -/
def modThr (s : State) (slot : Nat) (f : Thread → Thread) : State :=
  match thr s slot with
  | some t => setThr s slot (f t)
  | none => s

/-- A core's part of the state. -/
def core (s : State) (c : Nat) : Core := (find s.cores c).getD Core.reset
/-- The state with a core changed. -/
def modCore (s : State) (c : Nat) (f : Core → Core) : State := { s with cores := put s.cores c (f (core s c)) }
/-- A cluster's part of the state. -/
def cluster (s : State) (k : Nat) : Cluster := (find s.clusters k).getD Cluster.reset
/-- The state with a cluster changed. -/
def modCluster (s : State) (k : Nat) (f : Cluster → Cluster) : State :=
  { s with clusters := put s.clusters k (f (cluster s k)) }
/-- A core-side slice's part of the state. -/
def slice (s : State) (h : Nat) : Slice := (find s.slices h).getD Slice.reset
/-- The state with a slice changed. -/
def modSlice (s : State) (h : Nat) (f : Slice → Slice) : State := { s with slices := put s.slices h (f (slice s h)) }
/-- A die's part of the state. -/
def die (s : State) (d : Nat) : Die := (find s.dies d).getD Die.reset
/-- The state with a die changed. -/
def modDie (s : State) (d : Nat) (f : Die → Die) : State := { s with dies := put s.dies d (f (die s d)) }
/-- A partition. -/
def part (s : State) (cid : Nat) : Option Part := find s.parts cid
/-- The state with a partition changed. -/
def modPart (s : State) (cid : Nat) (f : Part → Part) : State :=
  match part s cid with
  | some p => { s with parts := put s.parts cid (f p) }
  | none => s
/-- The state with the package's own part changed. -/
def modPkg (s : State) (f : Pkg → Pkg) : State := { s with pkg := f s.pkg }

/-- The partition that owns a core's cluster (R9). -/
def cidOf (s : State) (core : Nat) : Nat := (cluster s (clusterOf core)).cid

/-- Something that will come about. -/
def post (s : State) (e : Event) : State := { s with due := s.due ++ [e] }
/-- Several things that will come about, in order. -/
def postAll (s : State) (es : List Event) : State := { s with due := s.due ++ es }
/-- A limit that may run out. (DESIGN CHOICE, log entry 11) -/
def postTimer (s : State) (e : Event) : State :=
  if s.timers.contains e then s else { s with timers := s.timers ++ [e] }
/-- A limit that no longer runs. -/
def dropTimer (s : State) (e : Event) : State := { s with timers := s.timers.filter fun x => x != e }

/-- A state transformer applied for each item of a list, in order. -/
def forEach {α : Type} (xs : List α) (f : State → α → State) (s : State) : State := xs.foldl f s

/-! ### Registers and waits -/

/-- A thread with window registers written; 127 discards (R154), and no other number names one. -/
def wrReg (t : Thread) (r : Nat) (v : Word) : Thread :=
  if r < t.regs.length then { t with regs := t.regs.set r v } else t

/-- A thread with several window registers written. -/
def wrRegs (t : Thread) (rs : List (Nat × Word)) : Thread := rs.foldl (fun t p => wrReg t p.1 p.2) t

/-- What a thread waits for, also while it is PARKED on an earlier access. -/
def waitOf (t : Thread) : Option Wait :=
  match t.status with
  | .wait w => some w
  | .parked => t.resume
  | .ready => none

/-- The key of a saved thread's running limits, while it has no slot (R289, R306). -/
def awayKey (t : Thread) : Nat := 2 ^ 20 + t.seqno

/-- A thread whose wait is changed to another, PARKED or not. -/
def setWait (t : Thread) (w : Wait) : Thread :=
  match t.status with
  | .parked => { t with resume := some w }
  | _ => { t with status := .wait w }

/-- A thread whose waited-for instruction completes: results written, the next instruction next, READY
(R183); one that is PARKED on an earlier access stays so. -/
def completed (t : Thread) (rs : List (Nat × Word)) : Thread :=
  { wrRegs t rs with pc := t.pc + 4, status := if t.status = .parked then .parked else .ready, resume := none, blk := [],
                     landed := none, kept := [], pops := [] }

/-- A saved context whose wait has ended at a time, marked for class 1 of R347. -/
def wokenSaved (now : Nat) (c : Saved) : Saved :=
  if c.wakeDue || c.thread.status == .parked then c else { c with wakeDue := true, woke := now }

/-- A saved context whose waited-for instruction completes. -/
def completedSaved (now : Nat) (c : Saved) (rs : List (Nat × Word)) : Saved :=
  { wokenSaved now c with thread := completed c.thread rs }

/-- Complete the waits that a condition picks, in resident threads and in saved contexts (R360: a saved
wait goes on; its end makes the context a candidate of its core, R347). The condition sees the core. -/
def completeWaits (s : State) (f : Nat → Thread → Wait → Option (List (Nat × Word))) : State :=
  let res := fun (p : Nat × Thread) =>
    match waitOf p.2 with
    | some w =>
      match f (coreOf p.1) p.2 w with
      | some rs => (p.1, completed p.2 rs)
      | none => p
    | _ => p
  let sav := fun (c : Saved) =>
    match waitOf c.thread with
    | some w =>
      match f c.core c.thread w with
      | some rs => completedSaved s.nextTx c rs
      | none => c
    | _ => c
  let news := (s.saved.filter fun c => !c.wakeDue && (sav c).wakeDue).map fun c => Event.slotGrant c.core
  { s with threads := s.threads.map res, saved := s.saved.map sav, due := s.due ++ news, nextTx := s.nextTx + 1 }

/-- Complete one resident thread's wait. -/
def complete (s : State) (slot : Nat) (rs : List (Nat × Word)) : State := modThr s slot fun t => completed t rs

/-- A thread enters WAIT inside an instruction that has issued. -/
def waitIn (s : State) (slot : Nat) (w : Wait) : State :=
  { modThr s slot (fun t => { t with status := .wait w, seqno := s.nextTx }) with nextTx := s.nextTx + 1 }

/-- A fresh transaction number is `s.nextTx`; this takes it. -/
def tick (s : State) : State := { s with nextTx := s.nextTx + 1 }

/-! ### Pending traps, faults and errors -/

/-- The order of the status of a partition's resident and saved threads is the state's own; here, every
thread with an identifier. -/
def slotsOfSwid (s : State) (cid swid : Nat) : List Nat :=
  (s.threads.filter fun p => p.2.swid == swid && cidOf s (coreOf p.1) == cid).map Prod.fst

/-- An asynchronous trap becomes pending for a thread (R353); a refused load's destination waits until it is taken (R208). -/
def pendTrap (s : State) (slot cause : Nat) (tval tadr : Word) (dest : Dest := .discard) : State :=
  let a : Async := { cause := cause, tval := tval, tadr := tadr, store := false, dest := dest }
  post (modThr s slot fun t => { t with pend := t.pend ++ [a] }) (.asyncTrapDelivery slot)

/-- A fault waits for the partition's queue, and will be tried (R356). -/
def raiseFault (s : State) (cid : Nat) (r : FaultRec) : State :=
  post (modPart s cid fun p => { p with faults := p.faults ++ [r] }) (.faultQueueRetry cid)

/-- A fault record of the partition's queue (R356). -/
def faultRec (kind acc va swid jix slot clu unit cause job : Nat) : FaultRec :=
  { hyper := false
    told := false
    w0 := word (kind * 2 ^ 60 + acc * 2 ^ 57 + va % 2 ^ 52)
    w1 := word (swid * 2 ^ 32 + jix * 2 ^ 27 + slot)
    w2 := word (clu * 2 ^ 56 + unit * 2 ^ 48 + cause)
    w3 := word job }

/-- The words that a granule mark covers are kept one by one; the granule of an address (R52): 32 bytes in
HBM4E, 64 in the CXL tier, one word elsewhere. (DEDUCED, log entry 18) -/
def granule (a : Nat) : Nat := if a < 2 ^ 43 then 32 else if a < 2 ^ 46 then 64 else 4

/-- Whether two byte ranges meet. -/
def meets (a n b m : Nat) : Bool := decide (a < b + m) && decide (b < a + n)

/-- Whether a byte range meets a poisoned word. -/
def poisoned (s : State) (a n : Nat) : Bool := s.poison.any fun w => decide (w < a + n) && decide (a < w + 4)

/-- The offsets of the poisoned bytes of a range. -/
def badBytes (s : State) (a n : Nat) : List Nat :=
  if poisoned s a n then (List.range n).filter fun i => poisoned s (a + i) 1 else []

/-- The poison marks after a write of n bytes at a into granules of g bytes, and whether the write was a
partial write of a poisoned granule (R389, R390). -/
def poisonAfter (poison : List Nat) (g a n : Nat) : List Nat × Bool :=
  let hit := poison.any fun w => decide (w < a + n) && decide (a < w + 4)
  if hit then
    let grans := (poison.filter fun w => decide (w < a + n) && decide (a < w + 4)).map fun w => w / g * g
    let part := grans.filter fun x => !(decide (a ≤ x) && decide (x + g ≤ a + n))
    let kept := poison.filter fun w => !(decide (a ≤ w / g * g) && decide (w / g * g + g ≤ a + n))
    let marked := part.foldl (fun ps x =>
      ((List.range (g / 4)).map fun i => x + 4 * i).foldl (fun qs w => if qs.contains w then qs else qs ++ [w]) ps) kept
    (marked, !part.isEmpty)
  else (poison, false)

/-- A word added to the poison marks. -/
def addPoison (ps : List Nat) (w : Nat) : List Nat := if ps.contains w then ps else ps ++ [w]

/-- Mark a whole range poisoned, word by word. -/
def markPoison (s : State) (a n : Nat) : State :=
  let ws := (List.range ((n + 3) / 4)).map fun i => a / 4 * 4 + 4 * i
  { s with poison := ws.foldl addPoison s.poison }

/-- The words of a line that are poisoned where its home, or memory, holds it (R389). -/
def badWords (s : State) (line : Nat) : List Nat := (List.range 32).filter fun w => poisoned s (line * 128 + 4 * w) 4

/-- Keep the newest n of a list. -/
def newest {α : Type} (n : Nat) (l : List α) : List α := l.drop (l.length - n)

/-- Bytes written to an explicit level, with the poison marks of R389 and R390; the flag says that a
granule was poisoned by the merge. -/
def writeExplicit (s : State) (a : Nat) (bs : List Byte) : State × Bool :=
  let pp := poisonAfter s.poison 4 a bs.length
  ({ s with mem := writeBytes s.mem a bs, poison := pp.1 }, pp.2)

/-- Whole words written by hardware to an explicit level: they lose their poison marks (R389). -/
def writeWords (s : State) (cells : List (Nat × Byte)) : State :=
  { s with mem := writeCells s.mem cells, poison := s.poison.filter fun w => !(cells.any fun c => c.1 == w) }

/-! ### Jobs (R258 to R262) -/

/-- A job of a cluster. -/
def jobAt (s : State) (k id : Nat) : Option Job := (cluster s k).jobs.find? fun j => j.id == id
/-- A job changed. -/
def modJob (s : State) (k id : Nat) (f : Job → Job) : State :=
  modCluster s k fun x => { x with jobs := x.jobs.map fun j => if j.id == id then f j else j }

/-- A job's command: OPC (R172). -/
def jobOpc (j : Job) : Nat := fld j.c0 6 0
/-- A job's unit: 0 matrix engine, 1 copy unit, 2 domain (R186). -/
def jobUnit (j : Job) : Nat := if jobOpc j < 0x10 then 0 else if jobOpc j < 0x20 then 1 else 2
/-- Whether the job is the matrix engine's. -/
def isMatrix (j : Job) : Bool := decide (jobOpc j < 0x10)
/-- A job's member cores within its cluster (R267). -/
def jobMembers (j : Job) : List Nat :=
  if 2 ≤ jobOpc j ∧ jobOpc j ≤ 5 then (List.range 8).filter fun i => bitOf j.c0 (40 + i) else []
/-- Whether the job is a gang job (R258, R270). -/
def isGang (j : Job) : Bool := decide (2 ≤ jobOpc j) && decide (jobOpc j ≤ 5)

/-- The event by which a job makes its next step. -/
def jobEvent (k : Nat) (j : Job) : Event :=
  let going := j.st == .running || j.st == .stopped
  match jobOpc j with
  | 0x01 => .mtCtx k j.id
  | 0x02 => if going then .ringStep k j.id else .mtTern k j.id
  | 0x03 => if going then .ringStep k j.id else .mtBooth k j.id
  | 0x04 => if going then .ringStep k j.id else .mtZero k j.id
  | 0x05 => if going then .ringStep k j.id else .mtDrain k j.id
  | 0x10 => .cpCopy k j.id
  | 0x11 => .cpFill k j.id
  | 0x12 => .cpGath k j.id
  | 0x13 => .cpScat k j.id
  | 0x14 => .cpRed k j.id
  | 0x20 => .cpAr k j.id
  | _ => .cpBcast k j.id

/-- What a touch of a job's stands under among its destination units: none of them (R61). -/
def noUnit : Nat := 2 ^ 39

/-- A job's next step is due: once, however many wakes come before it. -/
def wakeJob (s : State) (k id : Nat) : State :=
  match jobAt s k id with
  | some j => if j.ended || s.due.contains (jobEvent k j) then s else post s (jobEvent k j)
  | none => s

end Sys2Proof.Machine
end

