-- ==== Sys2Proof/Machine/Mside.lean ====
section
/-! DEFINITION. Behind the homes (spec/03_hierarchy.md R34, R40, R41, R53): the controllers that a line's requests reach,
and the memory-side caches of the HBM4E channels. -/

namespace Sys2Proof.Machine

/-! ### Homes -/

/-- The exclusive or of the w-bit fields of a number that has 39 bits. -/
def xorFields (w x : Nat) : Nat → Nat
  | 0 => 0
  | n + 1 => (x % 2 ^ w) ^^^ xorFields w (x / 2 ^ w) n

/-- R29: the home slice of a physical address, on a die-homed page or a package-spread one. -/
def homeSlice (home : Option Nat) (pa : Nat) : Nat :=
  let l := pa / 128 % 2 ^ 39
  match home with
  | some d => d * 64 + xorFields 6 l 7
  | none => xorFields 8 l 5

/-- The line of a key at a slice. -/
def lineAt (s : State) (h cid line : Nat) : Option HomeLine :=
  (slice s h).lines.find? fun x => x.cid == cid && x.line == line

/-- The copies of a line that homes hold. -/
def homeCopies (s : State) (line : Nat) : List (Nat × HomeLine) :=
  s.slices.flatMap fun h => (h.2.lines.filter fun x => x.line == line).map fun x => (h.1, x)

/-! ### Retired ways (R393) -/

/-- A cache whose ways may be retired: by its structure code, and the core, slice or channel. -/
def cacheKey (str unit : Nat) : Nat := str * 2 ^ 12 + unit

/-- How many ways of a cache are retired. -/
def retiredWays (s : State) (str unit : Nat) : Nat := (find s.pkg.retired (cacheKey str unit)).getD 0

/-! ### The controllers -/

/-- The controller that a line's request reaches: a channel 0 to 255, or a CXL port 256 to 259 (R41, R53). -/
def controllerOf (pa : Nat) : Nat :=
  let l := pa / 128
  if pa < 2 ^ 39 then pa / 2 ^ 36 * 32 + xorFields 5 (l % 2 ^ 20) 4 else 256 + (pa - 2 ^ 43) / 2 ^ 41

/-- A request to memory is on its way to be counted at its controller (R53). -/
def countAt (s : State) (cid line : Nat) : State :=
  post s (.memoryControllerRequest (controllerOf (line * 128)) (line * 128 / 2 ^ 16) cid)

/-! ### The memory-side caches (R40) -/

/-- The channel whose memory-side cache may hold a line; a line of the CXL tier has none. -/
def channelOf (line : Nat) : Option Nat := if line * 128 < 2 ^ 39 then some (controllerOf (line * 128)) else none

/-- The set of a line: the low bits of its number within its channel. (DESIGN CHOICE, log entry 17) -/
def msSet (line : Nat) : Nat := line / 32 % 1024

/-- A channel's lines. -/
def mside (s : State) (ch : Nat) : List MsLine := (find s.pkg.mside ch).getD []

/-- A channel's lines replaced. -/
def setMside (s : State) (ch : Nat) (ls : List MsLine) : State := modPkg s fun p => { p with mside := put p.mside ch ls }

/-- The copy of a line under a CID in its memory-side cache: a hit needs both (R31). -/
def msFind (s : State) (cid line : Nat) : Option MsLine :=
  (channelOf line).bind fun ch => (mside s ch).find? fun x => x.cid == cid && x.line == line

/-- A line as the memory side has it, for a home that asks under a CID. -/
def msPeek (s : State) (cid line : Nat) : List Byte :=
  match msFind s cid line with
  | some x => x.data
  | none => readBytes s.mem (line * 128) 128

/-- Bytes of one line as the memory side has them. -/
def msBytes (s : State) (cid pa n : Nat) : List Byte := ((msPeek s cid (pa / 128)).drop (pa % 128)).take n

/-- The marks of some words of a line are gone, since memory has their good bytes. -/
def clearMarks (s : State) (line : Nat) (ws : List Nat) : State :=
  if ws.isEmpty then s else { s with poison := s.poison.filter fun w => !(w / 128 == line && ws.contains (w % 128 / 4)) }

/-- R389: a copy that leaves unchanged takes its own poison with it: memory's bytes are good. A home's copy that was made of it
has carried the poison on. -/
def leaveMarks (s : State) (x : MsLine) : State :=
  let up := fun (l : HomeLine) => l.cid == x.cid && l.line == x.line && l.data.isSome
  if x.lost.isEmpty then s
  else if s.slices.any fun h => h.2.lines.any up then
    let carry := fun (l : HomeLine) => if up l then { l with lost := (l.lost ++ x.lost).eraseDups } else l
    { s with slices := s.slices.map fun h => (h.1, { h.2 with lines := h.2.lines.map carry }) }
  else clearMarks s x.line x.lost

/-- A copy leaves its memory-side cache, its data written to the stack if they differ (R40). -/
def msDrop (s : State) (cid line : Nat) : State :=
  match channelOf line, msFind s cid line with
  | some ch, some x =>
    let s := setMside s ch ((mside s ch).filter fun y => !(y.cid == cid && y.line == line))
    if x.dirty then { s with mem := writeBytes s.mem (line * 128) x.data } else leaveMarks s x
  | _, _ => s

/-- The ways of a channel's memory-side cache that hold lines: 8, less those retired (R40, R393). -/
def msWays (s : State) (ch : Nat) : Nat := 8 - retiredWays s 8 ch

/-- A line put first in its memory-side cache: the least recently used way of a full set makes room (R40).
(DESIGN CHOICE, log entry 17) -/
def msPut (s : State) (ch : Nat) (x : MsLine) : State :=
  let rest := (mside s ch).filter fun y => !(y.cid == x.cid && y.line == x.line)
  let inSet := rest.filter fun y => msSet y.line == msSet x.line
  match if inSet.length < msWays s ch then none else inSet.getLast? with
  | some v =>
    let s := msDrop s v.cid v.line
    setMside s ch (x :: rest.erase v)
  | none => setMside s ch (x :: rest)

/-- A read of a line by its home: counted, and allocated in the memory-side cache (R40, R53).
(DESIGN CHOICE, log entry 17) -/
def memRead (s : State) (cid line : Nat) : State :=
  let s := countAt s cid line
  match channelOf line with
  | none => s
  | some ch => match msFind s cid line with
    | some x => msPut s ch x
    | none => msPut s ch { cid := cid, line := line, data := readBytes s.mem (line * 128) 128, dirty := false }

/-- A home's write of bytes of one line: counted, and allocated in the memory-side cache, which writes them back when the
line leaves it (R40, R53). (DESIGN CHOICE, log entry 17) -/
def memWrite (s : State) (cid line : Nat) (cells : List (Nat × Byte)) : State :=
  let s := countAt s cid line
  match channelOf line with
  | none => post { s with mem := writeCells s.mem cells } (.expanderWrite cid line ([0, 1].filter fun k => cells.any fun c => c.1 % 128 / 64 == k))
  | some ch =>
    msPut s ch { cid := cid, line := line, data := cells.foldl (fun d c => d.set (c.1 % 128) c.2) (msPeek s cid line), dirty := true }

/-- Lines beyond the ways that are left leave a memory-side cache, least recently used first. -/
def msShrink (s : State) (ch : Nat) : State :=
  let over_ := fun (ls : List MsLine) (x : MsLine) =>
    decide (msWays s ch ≤ (ls.takeWhile fun y => y != x).countP fun y => msSet y.line == msSet x.line)
  let ls := mside s ch
  -- a poisoned line is not written back (R393)
  let leave := fun (s : State) (x : MsLine) =>
    if x.dirty && poisoned s (x.line * 128) 128 then
      clearMarks (setMside s ch ((mside s ch).filter fun y => y != x)) x.line x.lost
    else msDrop s x.cid x.line
  (ls.filter (over_ ls)).foldl leave s

/-- The cells of consecutive bytes. -/
def cellsAt (a : Nat) (bs : List Byte) : List (Nat × Byte) := bs.zipIdx.map fun p => (a + p.2, p.1)

/-- A home's write-back of a whole line (R38, R40). -/
def memBack (s : State) (cid line : Nat) (data : List Byte) : State := memWrite s cid line (cellsAt (line * 128) data)

/-- R221: a home's write of a whole line that goes on through the memory-side cache to memory, whose copy is clean then. -/
def memThrough (s : State) (cid line : Nat) (data : List Byte) : State :=
  let s := memBack s cid line data
  match channelOf line, msFind s cid line with
  | some ch, some x => { msPut s ch { x with dirty := false, lost := [] } with mem := writeBytes s.mem (line * 128) data }
  | _, _ => s

/-- Every memory-side cache's dirty lines of a property written to the stack, oldest first; the copies are clean then. -/
def msFlush (s : State) (p : MsLine → Bool) : State :=
  let out := s.pkg.mside.flatMap fun c => (c.2.filter fun x => x.dirty && p x).reverse
  let clean := fun (x : MsLine) => if x.dirty && p x then { x with dirty := false, lost := [] } else x
  let s := modPkg s fun q => { q with mside := q.mside.map fun c => (c.1, c.2.map clean) }
  out.foldl (fun s x => { s with mem := writeBytes s.mem (x.line * 128) x.data }) s

/-- A write of an uncached page performed at memory: no cache keeps the line (R28, R39).
(DESIGN CHOICE, log entry 17) -/
def memUncached (s : State) (cid line : Nat) (cells : List (Nat × Byte)) : State :=
  let s := msDrop (countAt s cid line) cid line
  { s with mem := writeCells s.mem cells }

/-! ### The error log (R392, R393) -/

/-- A CID as one of those that a structure holds: CID 0 is held for every partition (R392). -/
def heldCids (s : State) (cids : List Nat) : List Nat := if cids.contains 0 then s.parts.map Prod.fst else cids

/-- The partitions whose ranges hold a physical address. -/
def ownersOf (s : State) (pa : Nat) : List Nat :=
  let u := pa / 2 ^ 16
  (s.parts.filter fun p => decide (p.2.hbase ≤ u) && decide (u < p.2.hbase + p.2.hsize) ||
    decide (p.2.cbase ≤ u) && decide (u < p.2.cbase + p.2.csize)).map Prod.fst

/-- The CIDs that a slice's L2 and directory hold. -/
def sliceCids (s : State) (h : Nat) : List Nat :=
  (slice s h).lines.map HomeLine.cid ++ (slice s h).holders.map Holder.cid

/-- The partitions that an error record is copied to: of a cluster's structures, the one that owns the cluster; of a shared
structure, each whose CID it holds, and the one that the record names (R392). Which CIDs the chip scratchpad and the memory
beyond the caches hold is not said: those of the die's clusters, and those whose ranges hold the address.
(DESIGN CHOICE, log entry 39) -/
def toldOf (s : State) (e : ErrRec) : List Nat :=
  let shared := fun (cids : List Nat) => (heldCids s (e.cid :: cids)).filter fun c => c != 0
  let named := fun (cids : List Nat) => (if e.cid = 0 then cids else e.cid :: cids).filter fun c => c != 0
  let tables := ((slice s e.clu).tows.filterMap fun w => (find (die s (w.handle / 64)).tows (w.handle % 64)).map Tow.cid) ++
    ((die s (dieOfCluster e.clu)).table.entries.filter fun t => t.slice == e.clu).map Entry.cid
  match e.str with
  | 5 => if e.cid = 0 && (lineHere s e.clu e.adr).isNone then named (heldCids s (sliceCids s e.clu)) else shared (sliceCids s e.clu)
  | 6 => named tables
  | 7 => named ((s.clusters.filter fun k => dieOfCluster k.1 == dieOfCluster e.clu).map fun k => k.2.cid)
  | 8 => named (heldCids s ((mside s (controllerOf e.adr)).map MsLine.cid))
  | 9 => named (ownersOf s e.adr)
  | 10 => named (ownersOf s e.adr)
  | _ => [(cluster s e.clu).cid].filter fun c => c != 0
where
  /-- The common line that a record names. -/
  lineHere (s : State) (h adr : Nat) : Option HomeLine := (slice s h).lines.find? fun x => x.cid == 0 && x.line == adr / 128

/-- Spare rows of a structure in use. -/
def sparesOf (s : State) (str : Nat) : Nat := (find s.pkg.sparesUsed str).getD 0

/-- R393: an error starts a self-test of its row, unless one of that row is under way: the row's contents move to a spare,
where one is left. The CXL tier has no row of the device. (DESIGN CHOICE, log entry 39) -/
def startTest (s : State) (e : ErrRec) : State :=
  let same := fun (t : RowTest) => t.str == e.str && t.adr == e.adr && t.unit == e.unit
  if 4 ≤ e.typ || e.str = 10 || s.pkg.tests.any same then s
  else
    let spare := decide (sparesOf s e.str < Config.spareRows e.str)
    modPkg s fun p => { p with
      tests := p.tests ++ [{ str := e.str, adr := e.adr, unit := e.unit, cid := e.cid, spare := spare }]
      sparesUsed := if spare then put p.sparesUsed e.str (sparesOf s e.str + 1) else p.sparesUsed }

/-- R392, R394: an error appended to a die's log, copied to the error windows, counted if it cannot be corrected, and its
row's test begun. TIME is a free value. (DESIGN CHOICE, log entry 11; DESIGN CHOICE, log entry 39) -/
def logError (s : State) (d : Nat) (e : ErrRec) : State :=
  let e := { e with time := Config.freeValue s.fresh }
  let s := { s with fresh := s.fresh + 1 }
  let s := modDie s d fun x => { x with errlog := newest 4096 (x.errlog ++ [e]) }
  let to_ := toldOf s e
  let f := fun (v : Nat × Vf) =>
    if to_.contains v.2.part then (v.1, { v.2 with window := newest 64 (v.2.window ++ [e]), told := v.2.told + 1 }) else v
  let ue := if e.typ = 2 || e.typ = 3 then 1 else 0
  startTest (modPkg s fun p => { p with vfs := p.vfs.map f, ue := Nat.min (2 ^ 32 - 1) (p.ue + ue) }) e

/-- The byte index of an explicit place within its structure: a core's scratchpad, a cluster's shared memory, a core's lane
slice, or a slice's part of the chip scratchpad (R392). (DESIGN CHOICE, log entry 39) -/
def indexOf (a : Nat) : Nat :=
  if a < chipBase then a
  else if a < coreBase then (a - chipBase) % 2 ^ 25 / 8192 * 128 + (a - chipBase) % 128
  else if a < clusBase then (a - coreBase) % 2 ^ 18
  else if a < laneBase then (a - clusBase) % 2 ^ 20
  else (a - laneBase) % 2 ^ 15

/-- The structure code of an explicit place, for the error log (R392). -/
def structureOf (a : Nat) : Nat :=
  if a < coreBase then 7 else if a < clusBase then 2 else if a < laneBase then 3 else 1

/-- The cluster or slice that an explicit place belongs to (R392). -/
def unitOf (a : Nat) : Nat :=
  if a < coreBase then chipSlice (a - chipBase)
  else if a < clusBase then clusterOf ((a - coreBase) / 2 ^ 18)
  else if a < laneBase then (a - clusBase) / 2 ^ 20
  else clusterOf ((a - laneBase) / 2 ^ 15)

/-- The core, cluster or slice whose structure an explicit place is of: rows of two cores are two. -/
def rowUnit (a : Nat) : Nat :=
  if coreBase ≤ a ∧ a < clusBase then (a - coreBase) / 2 ^ 18
  else if laneBase ≤ a then (a - laneBase) / 2 ^ 15
  else unitOf a

/-- A record of an error of a structure. (DESIGN CHOICE, log entry 39) -/
def errorRec (typ str adr clu cid : Nat) : ErrRec :=
  { typ := typ, str := str, adr := adr, swid := 0, slot := 0, clu := clu, cid := cid, unit := clu }

/-- A record of an error of a core's structure. -/
def coreRec (typ str adr c cid : Nat) : ErrRec := { errorRec typ str adr (clusterOf c) cid with unit := c }

/-- The record of an error at an explicit place; the chip scratchpad, which no cluster owns, has no tag (R392).
(DESIGN CHOICE, log entry 39) -/
def placeRec (s : State) (a typ : Nat) : ErrRec :=
  { errorRec typ (structureOf a) (indexOf a) (unitOf a) (if a < coreBase then 0 else (cluster s (unitOf a)).cid) with unit := rowUnit a }

/-- The record of an error in what stands behind the homes: the CXL tier, a memory-side cache, or a stack. The spec does not say
whose log takes it: that of the die of the address's package-spread home, which it names. (DESIGN CHOICE, log entry 39) -/
def memoryRec (s : State) (pa typ : Nat) : ErrRec :=
  match channelOf (pa / 128) with
  | none => errorRec typ 10 pa (homeSlice none pa) 0
  | some ch => match (mside s ch).find? fun x => x.line == pa / 128 with
    | some x => errorRec typ 8 pa (homeSlice none pa) x.cid
    | none => errorRec typ 9 pa (homeSlice none pa) 0

/-- An error appended to the log of the die of its cluster or slice. -/
def logAt (s : State) (e : ErrRec) : State := logError s (dieOfCluster e.clu) e

/-- The record of an error that a read meets in a granule. -/
def metRec (s : State) (u : Nat) : ErrRec :=
  if chipBase ≤ u then placeRec s u 2
  else match (homeCopies s (u / 128)).find? fun x => x.2.data.isSome with
    | some x => errorRec 2 5 u x.1 x.2.cid
    | none => memoryRec s u 2

/-- R389, R392: a read of n bytes at a meets the errors that no access has met: each is logged. -/
def meet (s : State) (a n : Nat) : State :=
  let size := fun (u : Nat) => if u % granule u = 0 then granule u else 4
  let here := fun (u : Nat) => meets u (size u) a n && poisoned s u 4
  let us := s.unlogged.filter here
  if us.isEmpty then s
  else us.foldl (fun s u => logAt s (metRec s u)) { s with unlogged := s.unlogged.filter fun u => !here u }

/-- The record of a granule poisoned by a merge: TYPE 3, naming the writer (R390). -/
def mergeError (s : State) (a str swid slot clu cid d : Nat) : State :=
  logError { s with unlogged := s.unlogged.filter fun u => u != a } d
    { typ := 3, str := str, adr := indexOf a, swid := swid, slot := slot, clu := clu, cid := cid
      unit := if chipBase ≤ a then rowUnit a else clu }

end Sys2Proof.Machine
end

