-- ==== Sys2Proof/Machine/Translate.lean ====
section
/-! DEFINITION. Translation behind the cluster port: homes (R29), table entries (R367), walks in two stages
(R368, R369, R372), the TLB (R370) and the walk caches (R371). -/

namespace Sys2Proof.Machine

/-- R369, R30, R31: the newest doubleword at the package-spread home of a table entry: that of the home's copy under the
walk's CID if it holds one, else that of the memory side. (DEDUCED, log entry 13) -/
def homeWord (s : State) (cid pa : Nat) : Word :=
  match (lineAt s (homeSlice none pa) cid (pa / 128)).bind HomeLine.data with
  | some d => word (leNat ((d.drop (pa % 128)).take 8))
  | none => word (leNat (msBytes s cid pa 8))

/-! ### Table entries (R367) -/

/-- The bits of the input address that index a level, and the size of a leaf there. -/
def levelShift : Nat → Nat
  | 0 => 39
  | 1 => 30
  | 2 => 21
  | _ => 16

/-- How many entries a table of a level has. -/
def levelEntries (stage2 : Bool) : Nat → Nat
  | 0 => if stage2 then 128 else 8192
  | 1 => 512
  | 2 => 512
  | _ => 32

/-- R365: whether a page lies wholly in backed storage. (DEDUCED, log entry 35) -/
def backed (pa size : Nat) : Bool :=
  if pa < 2 ^ 39 then decide (pa % 2 ^ 36 + size ≤ 64000000000)
  else if decide (2 ^ 43 ≤ pa) && decide (pa < 2 ^ 44) then
    decide (pa % 2 ^ 41 + size ≤ Config.expanderBytes ((pa - 2 ^ 43) / 2 ^ 41))
  else false

/-- The output address of a leaf. -/
def leafOut (e : Word) : Nat := fld e 45 16 * 2 ^ 16

/-- Whether an entry of a level is present: V = 1 and not malformed (R367). -/
def entryPresent (stage2 : Bool) (level : Nat) (e : Word) : Bool :=
  bitOf e 63 &&
    if bitOf e 62 then
      level != 0 && fld e 51 46 == 0 && fld e 7 0 == 0 && fld e 55 54 != 3 &&
        (leafOut e % 2 ^ levelShift level == 0) &&
        (if stage2 then fld e 58 56 == 0 && backed (leafOut e) (2 ^ levelShift level)
         else decide (fld e 58 56 ≤ 4) && fld e 53 52 == 0)
    else level != 3 && fld e 61 46 == 0 && fld e 7 0 == 0

/-- The HBM and CXL ranges of a partition, in units of 64 KiB: base and size (R381). (DEDUCED, log entry 34) -/
def rangesOf (p : Part) : List (Nat × Nat) := [(p.hbase, p.hsize), (p.cbase, p.csize)]

/-- The table areas that firmware has given the dies: first address and length (R316, R354). -/
def tableAreas (s : State) : List (Nat × Nat) :=
  (s.dies.map fun d => (fld d.2.tblArea 45 16 * 2 ^ 16, 2 ^ fld d.2.tblArea 5 0)).filter fun a => decide (2 ^ 20 ≤ a.2)

/-- The hotness area, if MG.HOTBASE names one: 260 records of 512 bytes (R55, R56). -/
def hotAreas (s : State) : List (Nat × Nat) :=
  let base := fld s.pkg.hotBase 45 12 * 2 ^ 12
  if base = 0 then [] else [(base, 260 * 512)]

/-- Whether a stretch of memory meets another: first addresses and lengths. -/
def spans (a b : Nat × Nat) : Bool := decide (a.1 < b.1 + b.2) && decide (b.1 < a.1 + a.2)

/-- R381: a stage-2 entry of a partition is malformed if it is a leaf whose output page does not lie within one of the
partition's ranges, or meets a table area, which lies outside every range (R316). A common page, which other partitions map
as well though their ranges do not overlap (R32), and the hotness area, which firmware maps (R55), lie outside the ranges of
those that share them. (DEDUCED, log entry 34) -/
def inRanges (s : State) (p : Part) (level : Nat) (e : Word) : Bool :=
  let page := (leafOut e, 2 ^ levelShift level)
  let hot := (hotAreas s).any fun a => decide (a.1 / 2 ^ 16 * 2 ^ 16 ≤ page.1) && decide (page.1 + page.2 < a.1 + a.2 + 2 ^ 16)
  let within := (rangesOf p).any fun r => decide (r.1 * 2 ^ 16 ≤ page.1) && decide (page.1 + page.2 ≤ (r.1 + r.2) * 2 ^ 16)
  !bitOf e 62 || ((bitOf e 52 || hot || within) && !(tableAreas s).any (spans page))

/-! ### Walks -/

/-- How a walk ends without a translation (R373): at a stage-1 entry, at the stage-2 entry of the data
address, or at the stage-2 entry of a stage-1 table's address. -/
inductive WalkFault where
  | stage1
  | dataIa (ia : Nat)
  | tableIa (ia : Nat)
  deriving DecidableEq, Repr

/-- A table pointer in the die's walk cache (R371). -/
def cachedPtr (ws : List WalkPtr) (cid : Nat) (stage2 : Bool) (level x : Nat) : Option WalkPtr :=
  ws.find? fun w => w.cid == cid && w.stage2 == stage2 && w.level == level && w.prefix_ == x / 2 ^ levelShift level

/-- What a walk has met: the table pointers that it has read, and the entries that it has read at their homes, by CID
and address. -/
structure Got where
  ptrs : List WalkPtr
  reads : List (Nat × Nat)
  deriving DecidableEq, Repr

/-- A walk that has met nothing yet. -/
def Got.none : Got := { ptrs := [], reads := [] }
/-- One more entry read. -/
def Got.read (g : Got) (cid pa : Nat) : Got := { g with reads := g.reads ++ [(cid, pa)] }
/-- One more pointer. -/
def Got.ptr (g : Got) (w : WalkPtr) : Got := { g with ptrs := g.ptrs ++ [w] }

/-- Stage 2 from a table onward: the leaf of an IA and its level. (DEDUCED, log entry 13; DEDUCED, log entry 34) -/
def walk2 (s : State) (ws : List WalkPtr) (p : Part) (cid ia : Nat) : Nat → Nat → Nat → Got → Got × Option (Word × Nat)
  | 0, _, _, got => (got, none)
  | fuel + 1, level, table, got =>
    match cachedPtr ws cid true level ia with
    | some w => walk2 s ws p cid ia fuel (level + 1) w.next got
    | none =>
      let at_ := table + 8 * (ia / 2 ^ levelShift level % levelEntries true level)
      let e := homeWord s cid at_
      let got := got.read cid at_
      if !entryPresent true level e || !inRanges s p level e then (got, none)
      else if bitOf e 62 then (got, some (e, level))
      else
        let next := fld e 45 8 * 256
        walk2 s ws p cid ia fuel (level + 1) next
          (got.ptr { cid := cid, stage2 := true, level := level, prefix_ := ia / 2 ^ levelShift level, next := next,
                     nextPa := next, iaPage := 0, iaSize := 1, common := false })

/-- The stage-2 root of a partition (R366). -/
def s2root (p : Part) : Nat := fld p.t1 45 10 * 1024

/-- The stage-1 root of a partition (R366). -/
def s1root (p : Part) : Nat := fld p.t0 45 16 * 2 ^ 16

/-- An address inside the page of a leaf. -/
def within (e : Word) (level x : Nat) : Nat := leafOut e + x % 2 ^ levelShift level

/-- Where a stage-1 table is: under which key (R31) and at which physical address. -/
structure TableAt where
  cid : Nat
  pa : Nat

/-- The pointer to a stage-1 table completed once its IA has been translated by a leaf of a level (R371). -/
def WalkPtr.placed (w : WalkPtr) (l2 : Word) (lv2 : Nat) : WalkPtr :=
  let size := 2 ^ levelShift lv2
  { w with nextPa := within l2 lv2 w.next, iaPage := w.next / size * size, iaSize := size, common := bitOf l2 52 }

/-- Stage 1 from a table onward: the leaf of a VA and its level. A table address is translated through stage 2, unless the
walk cache has the table's place; the pointer to a table is kept once that place is known. (DEDUCED, log entry 13) -/
def walk1 (s : State) (ws : List WalkPtr) (p : Part) (cid va : Nat) :
    Nat → Nat → Nat → Option TableAt → Option WalkPtr → Got → Got × Except WalkFault (Word × Nat)
  | 0, _, _, _, _, got => (got, .error .stage1)
  | fuel + 1, level, table, known, ptr, got =>
    match cachedPtr ws cid false level va with
    | some w => walk1 s ws p cid va fuel (level + 1) w.next (some { cid := if w.common then 0 else cid, pa := w.nextPa }) none got
    | none =>
      let off := 8 * (va / 2 ^ levelShift level % levelEntries false level)
      let place : Got × Option (Nat × Nat) := match known with
        | some t => (got, some (t.cid, t.pa + off))
        | none => match walk2 s ws p cid (table + off) 4 0 (s2root p) got with
          | (got, none) => (got, none)
          | (got, some (l2, lv2)) =>
            let got := match ptr with
              | some w => got.ptr (w.placed l2 lv2)
              | none => got
            (got, some (if bitOf l2 52 then 0 else cid, within l2 lv2 (table + off)))
      match place with
      | (got, none) => (got, .error (.tableIa (table + off)))
      | (got, some (key, at_)) =>
        let e := homeWord s key at_
        let got := got.read key at_
        if !entryPresent false level e then (got, .error .stage1)
        else if bitOf e 62 then (got, .ok (e, level))
        else
          let next := fld e 45 8 * 256
          walk1 s ws p cid va fuel (level + 1) next none
            (some { cid := cid, stage2 := false, level := level, prefix_ := va / 2 ^ levelShift level, next := next,
                    nextPa := 0, iaPage := 0, iaSize := 1, common := false }) got

/-- R368: the final translation of two leaves. -/
def finalEntry (cid va ia : Nat) (l1 : Word) (lv1 : Nat) (l2 : Word) (lv2 : Nat) : TlbEntry :=
  let lv := if lv1 ≤ lv2 then lv2 else lv1
  let size := 2 ^ levelShift lv
  let hm := fld l1 58 56
  { cid := cid
    va := va / size * size
    size := size
    pa := within l2 lv2 ia / size * size
    ia := ia / 2 ^ levelShift lv2 * 2 ^ levelShift lv2
    iaSize := 2 ^ levelShift lv2
    r := bitOf l1 61 && bitOf l2 61
    w := bitOf l1 60 && bitOf l2 60
    x := bitOf l1 59 && bitOf l2 59
    home := if hm ≤ 3 then some hm else none
    cache := if fld l1 55 54 ≤ fld l2 55 54 then fld l2 55 54 else fld l1 55 54
    tracked := bitOf l2 53
    common := bitOf l2 52 }

/-- R372: the whole walk of a VA, with what it met. -/
def walkVa (s : State) (die_ cid va : Nat) : Got × Except WalkFault TlbEntry :=
  match part s cid with
  | none => (.none, .error .stage1)
  | some p =>
    let ws := (die s die_).walkCache
    match walk1 s ws p cid va 4 0 (s1root p) none none .none with
    | (got, .error f) => (got, .error f)
    | (got, .ok (l1, lv1)) =>
      let ia := within l1 lv1 va
      match walk2 s ws p cid ia 4 0 (s2root p) got with
      | (got, none) => (got, .error (.dataIa ia))
      | (got, some (l2, lv2)) => (got, .ok (finalEntry cid va ia l1 lv1 l2 lv2))

/-! ### The TLB (R370) -/

/-- The smallest matching entry; among equal sizes the most recently installed. -/
def tlbFind (tlb : List TlbEntry) (cid va : Nat) : Option TlbEntry :=
  let m := tlb.filter fun e => e.cid == cid && e.va == va / e.size * e.size
  (m.find? fun e => e.size == 2 ^ 16).orElse fun _ => (m.find? fun e => e.size == 2 ^ 21).orElse fun _ => m.head?

/-- The set of an entry. -/
def tlbSet (e : TlbEntry) : Nat := e.va / e.size % 512

/-- The list without its last element of a property. -/
def dropLastOf {α : Type} (p : α → Bool) : List α → List α
  | [] => []
  | x :: xs => if p x && !(xs.any p) then xs else x :: dropLastOf p xs

/-- A result installed, most recent first; the least recently used way of a full set of 8 makes room. The
list is kept in order of use. -/
def tlbInstall (tlb : List TlbEntry) (e : TlbEntry) : List TlbEntry :=
  let same := tlb.filter fun x => tlbSet x == tlbSet e
  e :: (if same.length < 8 then tlb else dropLastOf (fun x => tlbSet x == tlbSet e) tlb)

/-- A hit moves an entry to the front, for the least-recently-used order (R370); an equal-sized newer
entry stays the one that a lookup finds. -/
def tlbUse (tlb : List TlbEntry) (e : TlbEntry) : List TlbEntry := e :: tlb.erase e

/-- What a walk has met, kept: its table pointers in the die's walk cache, at most 8,192 (R371), and each read that its
home did not hold counted at its controller, as an uncached read is (R53, R369). -/
def noteWalk (s : State) (d : Nat) (got : Got) : State :=
  let s := modDie s d fun x => { x with walkCache := newest 8192 (x.walkCache ++ got.ptrs.filter fun w => !x.walkCache.contains w) }
  got.reads.foldl (fun s q =>
    if ((lineAt s (homeSlice none q.2) q.1 (q.2 / 128)).bind HomeLine.data).isSome then s else countAt s q.1 (q.2 / 128)) s

/-- A translation that a walk has found is installed at a cluster's port (R370). -/
def installWalk (s : State) (k : Nat) (got : Got) (e : TlbEntry) : State :=
  noteWalk (modCluster s k fun x => { x with tlb := tlbInstall x.tlb e }) (dieOfCluster k) got

end Sys2Proof.Machine
end

