-- ==== Sys2Proof/Machine/Basins.lean ====
section
/-! DEFINITION. Basin lines at their holder (spec/04_basins.md R57 to R70): tags, word states, probes, fills
and write-back acknowledgements. -/

namespace Sys2Proof.Machine

/-- Tag key of a CORE line. The tags of CLUS lines follow the 2,048 of CORE. -/
def tagKey (clus : Bool) (sline : Nat) : Nat := if clus then 2048 + sline else sline

/-- The storage place of a scratchpad line. -/
def slinePlace (core : Nat) (clus : Bool) (sline : Nat) : Nat :=
  if clus then clusPlace (clusterOf core) (sline * 128) else corePlace core (sline * 128)

/-- The storage line of a tag, as one number. -/
def storageLine (core : Nat) (clus : Bool) (sline : Nat) : Nat := slinePlace core clus sline / 128

/-- The holder, side, line and tag of the basin line that contains a storage byte (R59). -/
def tagAt (s : State) (a : Nat) : Option (Nat × Bool × Nat × LineTag) :=
  if decide (coreBase ≤ a) && decide (a < clusBase) then
    let c := (a - coreBase) / 2 ^ 18
    let l := (a - coreBase) % 2 ^ 18 / 128
    (find (core s c).tags l).map fun t => (c, false, l, t)
  else if decide (clusBase ≤ a) && decide (a < laneBase) then
    let k := (a - clusBase) / 2 ^ 20
    let l := (a - clusBase) % 2 ^ 20 / 128
    (List.range 8).findSome? fun i => (find (core s (k * 8 + i)).tags (2048 + l)).map fun t => (k * 8 + i, true, l, t)
  else none

/-- A basin line's tag replaced. -/
def setTag (s : State) (c : Nat) (clus : Bool) (sline : Nat) (t : LineTag) : State :=
  modCore s c fun x => { x with tags := put x.tags (tagKey clus sline) t }

/-- The words of a line that a byte range of it covers, as a mask. -/
def wordMask (off n : Nat) : BitVec 32 :=
  BitVec.ofNat 32 ((List.range 32).foldl (fun m w => if decide (4 * w < off + n) && decide (off < 4 * w + 4) then m + 2 ^ w else m) 0)

/-- A descriptor's basin. -/
def basin (s : State) (c bn : Nat) : Option Basin := find (core s c).basins bn

/-- The basin with flags changed. -/
def modBasin (s : State) (c bn : Nat) (f : Basin → Basin) : State :=
  modCore s c fun x => match find x.basins bn with
    | some b => { x with basins := put x.basins bn (f b) }
    | none => x

/-- The device virtual address that a basin line stands for (R57). -/
def basinVa (b : Basin) (sline : Nat) : Nat := b.gva + (sline * 128 - b.sbase)

/-- The home's holder record for a holder's scratchpad line (R60), with its slice. -/
def holderRec (s : State) (c : Nat) (clus : Bool) (sline : Nat) : Option (Nat × Holder) :=
  s.slices.findSome? fun p =>
    (p.2.holders.find? fun r => r.core == c && r.clus == clus && r.sline == sline).map fun r => (p.1, r)

/-- The words of a basin line that its last fill brought poisoned, and that are ABSENT still (R391). -/
def poisonedWords (s : State) (c : Nat) (clus : Bool) (sline : Nat) : BitVec 32 :=
  match find (core s c).tags (tagKey clus sline) with
  | some t => t.ill &&& ~~~ t.v
  | none => 0

/-- Some words as a mask of their line. -/
def wordsMask (ws : List Nat) : BitVec 32 := ws.foldl (fun m w => m ||| BitVec.ofNat 32 (2 ^ w)) 0

/-- The words of a byte range that are absent from a basin (R61), by line: holder, side, line, mask.
(DEDUCED, log entry 41) -/
def absentWords (s : State) (a n : Nat) : List (Nat × Bool × Nat × BitVec 32) :=
  let first := a / 128
  let last := (a + n - 1) / 128
  ((List.range (last + 1 - first)).map fun i => first + i).filterMap fun l =>
    match tagAt s (l * 128) with
    | some (c, clus, sl, t) =>
      let lo := if l = first then a % 128 else 0
      let hi := if l = last then (a + n - 1) % 128 + 1 else 128
      let m := wordMask lo (hi - lo) &&& ~~~ t.v
      if m = 0 then none else some (c, clus, sl, m)
    | none => none

/-- The storage words of absent words that came poisoned. (DEDUCED, log entry 18) -/
def illWords (s : State) (a n : Nat) : List Nat :=
  (absentWords s a n).flatMap fun l =>
    let m := l.2.2.2 &&& poisonedWords s l.1 l.2.1 l.2.2.1
    ((List.range 32).filter fun w => m.getLsbD w).map fun w => slinePlace l.1 l.2.1 l.2.2.1 + 4 * w

/-- R391: a touch of words that poison keeps absent from a basin finds them poisoned. (DEDUCED, log entry 18) -/
def takePoison (s : State) (a n : Nat) : State :=
  let ws := illWords s a n
  if ws.isEmpty then s else { s with poison := ws.foldl addPoison s.poison }

/-- A use-or-waste report of a tow-marked line to its home, which clears the mark (R142). -/
def reportTow (s : State) (c : Nat) (clus : Bool) (sline : Nat) (used : Bool) : State :=
  match find (core s c).tags (tagKey clus sline) with
  | some t =>
    match t.tow with
    | some (hd, h) => post (setTag s c clus sline { t with tow := none }) (.towUseReport ⟨nodeCore c, h⟩ hd used)
    | none => s
  | none => s

/-- The tags after a read of a byte (only the tow mark changes). -/
def noteRead (s : State) (a : Nat) : State :=
  match tagAt s a with
  | some (c, clus, sl, _) => reportTow s c clus sl true
  | none => s

/-- The tags after a range has been read, line by line; errors there have been met (R389). -/
def noteReads (s : State) (a n : Nat) : State :=
  (List.range ((a + n - 1) / 128 + 1 - a / 128)).foldl (fun s i => noteRead s (128 * (a / 128 + i))) (meet s a n)

/-- The tags after a range inside one line has been written: its words become DIRTY (R61). -/
def noteWrite (s : State) (a n : Nat) : State :=
  match tagAt s a with
  | some (c, clus, sl, t) =>
    let m := wordMask (a % 128) n
    let s := setTag s c clus sl { t with v := t.v ||| m, dm := t.dm ||| m, sent := t.sent &&& ~~~ m }
    reportTow s c clus sl true
  | none => s

/-! ### Touches that wait for a fill (R61): each toucher has at most one entry, in its cluster's list -/

/-- The cluster of a storage line. -/
def clusterOfLine (line : Nat) : Nat :=
  if line * 128 < clusBase then clusterOf ((line * 128 - coreBase) / 2 ^ 18) else (line * 128 - clusBase) / 2 ^ 20

/-- The touch of a storage line whose turn it is: the first that has the landed bytes. -/
def firstTouch (s : State) (line : Nat) : Option Touch :=
  (cluster s (clusterOfLine line)).touches.find? fun t => t.line == line && t.data.isSome

/-- Whether a touch must wait for others of its line, issued earlier, to be performed on the landed bytes. -/
def othersFirst (s : State) (who : Toucher) (line : Nat) : Bool := (firstTouch s line).any fun t => t.who != who

/-- The landed bytes of a touch. -/
def Touch.landed (t : Touch) : Option Landed := t.data.map fun d => { line := t.line, mask := t.mask, data := d }

/-- The landed bytes that an event's touch of a storage byte is performed on. -/
def landedFor (s : State) (a : Nat) (e : Event) : Option Landed :=
  (firstTouch s (a / 128)).bind fun t => if t.who == .event e then t.landed else none

/-- A touch that need wait no more goes on, with the landed bytes if there are any; a message that waits comes about before
those that have been sent since (R49). -/
def wakeTouch (s : State) (t : Touch) : State :=
  match t.who with
  | .slot n =>
    modThr s n fun x => if x.status == .wait (.touch t.line) then
      { x with status := .wait .retry, landed := t.landed } else x
  | .event e => if s.due.contains e then s else { s with due := e :: s.due }

/-- Several touches go on, in order. -/
def wakeAll (s : State) (ts : List Touch) : State := ts.reverse.foldl wakeTouch s

/-- Whether the landed bytes of a touch still have someone to take them: its thread may be elsewhere by now. -/
def touchAwake (s : State) (t : Touch) : Bool :=
  match t.who with
  | .slot n => match thr s n with
    | some x => x.status == .wait (.touch t.line) || x.landed.map Landed.line == some t.line
    | none => false
  | .event _ => true

/-- The next touch of a storage line has its turn; once none has landed bytes and no fill is pending, all go on. -/
def nextTouch (s : State) (line : Nat) : Nat → State
  | 0 => s
  | n + 1 =>
    let k := clusterOfLine line
    match firstTouch s line with
    | some t =>
      if touchAwake s t then wakeTouch s t
      else nextTouch (modCluster s k fun x => { x with touches := x.touches.erase t }) line n
    | none =>
      if ((tagAt s (line * 128)).map fun t => t.2.2.2.fp).getD false then s
      else
        let ts := (cluster s k).touches.filter fun t => t.line == line
        wakeAll (modCluster s k fun x => { x with touches := x.touches.filter fun t => t.line != line }) ts

/-- A toucher leaves its place in a cluster's list, but for a line; those behind it go on. -/
def leaveTouch (s : State) (k : Nat) (who : Toucher) (but : Option Nat) : State :=
  let out := fun (t : Touch) => t.who == who && some t.line != but
  let gone := (cluster s k).touches.filter out
  gone.foldl (fun s t => nextTouch s t.line ((cluster s k).touches.length + 1))
    (if gone.isEmpty then s else modCluster s k fun x => { x with touches := x.touches.filter fun t => !out t })

/-- A toucher takes its place among those that wait for a line, and leaves any other; one that has its place there keeps it,
and waits for a new fill if it needs more words. -/
def joinTouch (s : State) (line : Nat) (who : Toucher) (mask : BitVec 32) (fresh : Bool) : State :=
  let k := clusterOfLine line
  let s := leaveTouch s k who (some line)
  let mine := fun (t : Touch) => t.line == line && t.who == who
  let more := fun (t : Touch) => if mine t then { t with mask := t.mask ||| mask, data := none, fresh := fresh } else t
  if (cluster s k).touches.any mine then
    if mask = 0 then s else modCluster s k fun x => { x with touches := x.touches.map more }
  else modCluster s k fun x =>
    { x with touches := x.touches ++ [{ line := line, who := who, mask := mask, data := none, fresh := fresh }] }

/-- A line's waiting touches once its fill has come, with the landed bytes and the words that were absent till then; or once
it has no basin any more. A touch takes landed bytes for those words only that it has waited for; one that was issued after a
probe of its words takes none, and asks for the line anew (R69). -/
def wakeTouches (s : State) (line : Nat) (landed : Option (BitVec 32 × List Byte)) : State :=
  let k := clusterOfLine line
  match landed with
  | some (absent, d) =>
    let s := modCluster s k fun x => { x with touches := x.touches.map fun t =>
      if t.line == line && t.data.isNone && !t.fresh then { t with data := some d, mask := t.mask &&& absent } else t }
    nextTouch s line ((cluster s k).touches.length + 1)
  | none =>
    let ts := (cluster s k).touches.filter fun t => t.line == line
    let s := modCluster s k fun x => { x with touches := x.touches.filter fun t => t.line != line }
    wakeAll s (ts.map fun t => { t with data := none })

/-- The bytes of a range as a touch may read them: landed bytes stand in for words that a probe kept from being
installed (R61). -/
def readLanded (s : State) (landed : Option Landed) (a n : Nat) : List Byte :=
  match landed with
  | none => readBytes s.mem a n
  | some l =>
    (List.range n).map fun i =>
      let b := a + i
      let w := b % 128 / 4
      match tagAt s b with
      | some (_, _, _, tag) => if b / 128 = l.line && l.mask.getLsbD w && !tag.v.getLsbD w then l.data.getD (b % 128) 0 else memByte s.mem b
      | none => memByte s.mem b

/-- Landed bytes put under a store or atomic that touches a word which a probe kept out (R61). -/
def putLanded (s : State) (landed : Option Landed) (a n : Nat) : State :=
  match landed with
  | none => s
  | some _ =>
    let ws := (List.range ((a + n - 1) / 4 + 1 - a / 4)).map fun i => 4 * (a / 4 + i)
    ws.foldl (fun s w => { s with mem := writeBytes s.mem w (readLanded s landed w 4) }) s

/-- R68, R376: the homes' records of a basin line are freed. -/
def forgetHolder (s : State) (c : Nat) (clus : Bool) (sline : Nat) : State :=
  let mine := fun (o : Holder) => o.core == c && o.clus == clus && o.sline == sline
  if s.slices.any fun h => h.2.holders.any mine then
    { s with slices := s.slices.map fun h => (h.1, { h.2 with holders := h.2.holders.filter fun o => !mine o }) }
  else s

/-- R61, R62: a fill lands: words that are absent and not probed take the landed value, and the waiting
touches go on in issue order. Words that come poisoned stay ABSENT, and a touch finds them so (R391); one that was probed
besides is asked for anew. (DEDUCED, log entry 41) -/
def basinFill (s : State) (c : Nat) (clus : Bool) (sline : Nat) (reg : Bool) (data : Carried) : State :=
  match find (core s c).tags (tagKey clus sline) with
  | none => s
  | some t =>
    let bad := wordsMask data.bad
    let take := ~~~ t.v &&& ~~~ t.probed &&& ~~~ bad
    let at_ := slinePlace c clus sline
    let cells := ((List.range 128).filter fun i => take.getLsbD (i / 4)).map fun i => (at_ + i, data.bytes.getD i 0)
    let s := writeWords s cells
    let s := setTag s c clus sline
      { t with fp := false, reg := reg && !t.unreg, v := t.v ||| take, probed := 0, unreg := false, ill := ~~~ t.v &&& ~~~ t.probed &&& bad }
    let s := if t.unreg then forgetHolder s c clus sline else s
    wakeTouches s (at_ / 128) (some (~~~ t.v &&& ~~~ (t.probed &&& bad), data.bytes))

/-- R61: an invalidation probe for a mask of words; the answer is whether the dirty-hit mask is nonzero. A tow-marked line
that loses any clean word counts as invalidated (R142). (DEDUCED, log entry 41; DESIGN CHOICE, log entry 47) -/
def basinProbe (s : State) (c : Nat) (clus : Bool) (sline : Nat) (mask : BitVec 32) (fromBasin : Bool) : State × Bool :=
  match find (core s c).tags (tagKey clus sline) with
  | none => (s, false)
  | some t =>
    let clean := t.v &&& ~~~ t.dm &&& mask
    let dirty := t.dm &&& mask
    let sent := t.sent &&& mask
    let v := t.v &&& ~~~ (clean ||| sent)
    let t' := { t with
      v := v
      dm := t.dm &&& ~~~ sent
      sent := t.sent &&& ~~~ sent
      ill := t.ill &&& ~~~ mask
      probed := if t.fp then t.probed ||| (mask &&& ~~~ v) else t.probed }
    let s := if clean = 0 then s else reportTow s c clus sline false
    let s := match find (core s c).tags (tagKey clus sline) with
      | some u => setTag s c clus sline { t' with tow := u.tow }
      | none => s
    let s := if dirty = 0 then s else modBasin s c t.bn fun b => { b with ow := true, cf := b.cf || fromBasin }
    (s, fromBasin && dirty != 0)

/-- R61, R68: a recall probe: clean words become absent, REG is cleared, dirty and sent words stay.
(DEDUCED, log entry 41) -/
def basinRecall (s : State) (c : Nat) (clus : Bool) (sline : Nat) : State :=
  match find (core s c).tags (tagKey clus sline) with
  | none => s
  | some t =>
    let clean := t.v &&& ~~~ t.dm
    let v := t.v &&& ~~~ clean
    let s := if clean = 0 then s else reportTow s c clus sline false
    setTag s c clus sline { t with
      v := v
      reg := false
      ill := 0
      tow := none
      unreg := t.fp
      probed := if t.fp then t.probed ||| ~~~ v else t.probed }

/-- R61, R65, R66: a line tag once a write-back of some of its words is answered: those that are SENT still become
clean or absent, or dirty again. -/
def ackedTag (t : LineTag) (m : BitVec 32) (reg refused : Bool) : LineTag :=
  let m := m &&& t.sent
  if refused then { t with sent := t.sent &&& ~~~ m }
  else if reg && t.reg then { t with dm := t.dm &&& ~~~ m, sent := t.sent &&& ~~~ m }
  else { t with v := t.v &&& ~~~ m, dm := t.dm &&& ~~~ m, sent := t.sent &&& ~~~ m }

/-- The words that a write-back in flight has SENT. -/
def flightMask (s : State) (c tx : Nat) : BitVec 32 := (((core s c).wbs.find? fun w => w.tx == tx).map WbFlight.mask).getD 0

/-- R65, R66: a write-back is acknowledged or refused, which its basin's line notes if the basin has it still. -/
def basinAck (s : State) (c tx bn : Nat) (clus : Bool) (sline : Nat) (reg cf refused : Bool) : State :=
  let m := flightMask s c tx
  let s := match find (core s c).tags (tagKey clus sline) with
    | none => s
    | some t => if t.bn = bn then setTag s c clus sline (ackedTag t m reg refused) else s
  let s := modBasin s c bn fun b => { b with cf := b.cf || cf, sf := b.sf || refused }
  modCore s c fun x => { x with wbs := x.wbs.filter fun w => w.tx != tx }

/-- The lines of a core's selected basins that hold DIRTY words: descriptor, side, line and mask (R65 step 1). -/
def dirtyLines (s : State) (c : Nat) (sel : Nat → Bool) : List (Nat × Bool × Nat × BitVec 32) :=
  (core s c).tags.filterMap fun p =>
    let m := p.2.dm &&& ~~~ p.2.sent
    if sel p.2.bn && m != 0 then
      some (p.2.bn, decide (2048 ≤ p.1), if 2048 ≤ p.1 then p.1 - 2048 else p.1, m)
    else none

/-- R75: the status word of a descriptor; a free one reads 0. -/
def basinStatus (s : State) (c bn : Nat) : Word :=
  match basin s c bn with
  | none => 0
  | some b =>
    let ts := (core s c).tags.filter fun p => p.2.bn == bn
    let dw := ts.foldl (fun n p => n + popcount p.2.dm) 0
    let pl := (ts.filter fun p => p.2.v != 0).length
    let st := match b.st with
      | .free => 0
      | .active => 1
      | .dropping => 2
    word (st * 2 ^ 62 + b.cf.toNat * 2 ^ 61 + b.ow.toNat * 2 ^ 60 + b.sf.toNat * 2 ^ 59 + b.clus.toNat * 2 ^ 58 +
      dw * 2 ^ 14 + pl)
where
  /-- Number of set bits of a mask. -/
  popcount (m : BitVec 32) : Nat := (List.range 32).foldl (fun n i => n + (m.getLsbD i).toNat) 0

/-- R376: the basin lines of a partition that an invalidation recalls; their old homes hold no record of them any more. -/
def recallBasins (s : State) (k cid : Nat) (overlaps : Basin → Bool) : State :=
  if (cluster s k).cid = cid then
    forEach (List.range 8) (fun s i =>
      let c := k * 8 + i
      forEach (core s c).tags (fun s p =>
        match basin s c p.2.bn with
        | some b =>
          let clus := decide (2048 ≤ p.1)
          let sline := if 2048 ≤ p.1 then p.1 - 2048 else p.1
          if overlaps b then forgetHolder (basinRecall s c clus sline) c clus sline else s
        | none => s) s) s
  else s

end Sys2Proof.Machine
end

