-- ==== Sys2Proof/Machine/Fp.lean ====
section
/-! DEFINITION. Floating-point numbers (spec/14_numbers.md R224 to R230, R235): encodings read as exact numbers, exact
sums and products, and one rounding at the end; the approximate forms of spec/15_isa_vector.md R242. -/

namespace Sys2Proof.Machine

/-- A floating-point format of R224: the widths of its exponent and fraction, and what its top exponent holds. -/
structure Flt where
  eb : Nat
  mb : Nat
  ieee : Bool        -- the top exponent holds infinities and NaNs; else only fraction all ones is a NaN (E4M3)
  sat : Bool         -- a rounded result beyond the range saturates in every mode (FP8, R229)
  deriving DecidableEq, Repr

/-- FP32. -/
def Flt.f32 : Flt := { eb := 8, mb := 23, ieee := true, sat := false }
/-- BF16. -/
def Flt.bf16 : Flt := { eb := 8, mb := 7, ieee := true, sat := false }
/-- FP8 E4M3. -/
def Flt.e4m3 : Flt := { eb := 4, mb := 3, ieee := false, sat := true }
/-- FP8 E5M2. -/
def Flt.e5m2 : Flt := { eb := 5, mb := 2, ieee := true, sat := true }
/-- E8M27, the accumulator format. -/
def Flt.e8m27 : Flt := { eb := 8, mb := 27, ieee := true, sat := false }

/-- The width of a format's encodings. -/
def Flt.width (f : Flt) : Nat := 1 + f.eb + f.mb
/-- The bias of its exponent. -/
def Flt.bias (f : Flt) : Nat := 2 ^ (f.eb - 1) - 1
/-- The exponent of the last place of its subnormals. -/
def Flt.low (f : Flt) : Int := 1 - (f.bias : Int) - f.mb
/-- The encoding of its infinity, without sign. -/
def Flt.inf (f : Flt) : Nat := (2 ^ f.eb - 1) * 2 ^ f.mb
/-- The encoding of its largest finite number, without sign. -/
def Flt.largest (f : Flt) : Nat := if f.ieee then f.inf - 1 else 2 ^ (f.eb + f.mb) - 2
/-- The canonical NaN (R227). -/
def Flt.nan (f : Flt) : Nat := if f.ieee then f.inf + 2 ^ (f.mb - 1) else 2 ^ (f.eb + f.mb) - 1

/-- An exact number: a NaN, an infinity, or sign, significand and exponent of (-1)^neg * m * 2^e. -/
inductive Num where
  | nan
  | inf (neg : Bool)
  | fin (neg : Bool) (m : Nat) (e : Int)
  deriving DecidableEq, Repr

/-- An encoding read as a number (R225). -/
def Flt.read (f : Flt) (bits : Nat) : Num :=
  let neg := bits / 2 ^ (f.eb + f.mb) % 2 == 1
  let e := bits / 2 ^ f.mb % 2 ^ f.eb
  let m := bits % 2 ^ f.mb
  if f.ieee && e == 2 ^ f.eb - 1 then (if m = 0 then .inf neg else .nan)
  else if !f.ieee && e == 2 ^ f.eb - 1 && m == 2 ^ f.mb - 1 then .nan
  else if e = 0 then .fin neg m f.low
  else .fin neg (2 ^ f.mb + m) (f.low + ((e - 1 : Nat) : Int))

/-- How many bits a number has. -/
def bitLen (n : Nat) : Nat := if n = 0 then 0 else Nat.log2 n + 1

/-- Whether the magnitude's last place goes up, when a remainder r of 2^k is dropped from an odd or even place (R228). -/
def roundsUp (rm : Rm) (neg odd : Bool) (r k : Nat) : Bool :=
  match rm with
  | .rne => decide (2 ^ k < 2 * r) || (decide (2 * r = 2 ^ k) && odd)
  | .rtz => false
  | .rup => !neg && decide (r ≠ 0)
  | .rdn => neg && decide (r ≠ 0)

/-- A magnitude m * 2^e as a multiple of 2^q, rounded (R228). -/
def quantize (rm : Rm) (neg : Bool) (m : Nat) (e q : Int) : Nat :=
  if q ≤ e then m * 2 ^ (e - q).toNat
  else
    let k := (q - e).toNat
    let n := m / 2 ^ k
    if roundsUp rm neg (n % 2 == 1) (m % 2 ^ k) k then n + 1 else n

/-- The sign bit of a format put on a magnitude's encoding. -/
def Flt.signed (f : Flt) (neg : Bool) (mag : Nat) : Nat := (if neg then 2 ^ (f.eb + f.mb) else 0) + mag

/-- R229: what a result beyond the largest finite number becomes. -/
def Flt.overflowed (f : Flt) (rm : Rm) (neg : Bool) : Nat :=
  if f.sat then f.largest
  else match rm with
    | .rne => f.inf
    | .rtz => f.largest
    | .rup => if neg then f.largest else f.inf
    | .rdn => if neg then f.inf else f.largest

/-- R228, R229: a number rounded once into a format. -/
def Flt.round (f : Flt) (rm : Rm) : Num → Nat
  | .nan => f.nan
  | .inf neg => f.signed neg (if f.ieee then f.inf else f.largest)
  | .fin neg m e =>
    if m = 0 then f.signed neg 0
    else
      let top := e + (bitLen m : Int) - 1
      let q := max f.low (top - f.mb)
      let n := quantize rm neg m e q
      let mag := n + (q - f.low).toNat * 2 ^ f.mb
      f.signed neg (if f.largest < mag then f.overflowed rm neg else mag)

/-- The sign of a number. -/
def Num.neg : Num → Bool
  | .nan => false
  | .inf n => n
  | .fin n _ _ => n

/-- A number with its sign inverted; a NaN stays one. -/
def Num.negate : Num → Num
  | .nan => .nan
  | .inf n => .inf (!n)
  | .fin n m e => .fin (!n) m e

/-- An exact product (R239). -/
def Num.mul : Num → Num → Num
  | .nan, _ => .nan
  | _, .nan => .nan
  | .inf a, .inf b => .inf (a != b)
  | .inf a, .fin b m _ => if m = 0 then .nan else .inf (a != b)
  | .fin b m _, .inf a => if m = 0 then .nan else .inf (a != b)
  | .fin a m e, .fin b n k => .fin (a != b) (m * n) (e + k)

/-- A significand with its sign. -/
def signedInt (neg : Bool) (m : Nat) : Int := if neg then -(m : Int) else m

/-- An exact sum; the sign of an exact zero follows R227. -/
def Num.add (rm : Rm) : Num → Num → Num
  | .nan, _ => .nan
  | _, .nan => .nan
  | .inf a, .inf b => if a = b then .inf a else .nan
  | .inf a, .fin _ _ _ => .inf a
  | .fin _ _ _, .inf a => .inf a
  | .fin a m e, .fin b n k =>
    let q := min e k
    let v := signedInt a (m * 2 ^ (e - q).toNat) + signedInt b (n * 2 ^ (k - q).toNat)
    if v = 0 then .fin (if a = b then a else rm == .rdn) 0 0 else .fin (decide (v < 0)) v.natAbs q

/-- Whether a number is below another, zeros equal; false with a NaN. -/
def Num.lt : Num → Num → Bool
  | .nan, _ => false
  | _, .nan => false
  | .inf a, .inf b => a && !b
  | .inf a, .fin _ _ _ => a
  | .fin _ _ _, .inf b => !b
  | .fin a m e, .fin b n k =>
    let q := min e k
    decide (signedInt a (m * 2 ^ (e - q).toNat) < signedInt b (n * 2 ^ (k - q).toNat))

/-- Whether a number is a NaN. -/
def Num.isNan : Num → Bool
  | .nan => true
  | _ => false

/-- Whether two numbers are equal, zeros equal; false with a NaN (R249). -/
def Num.eq (x y : Num) : Bool := !x.isNan && !y.isNan && !x.lt y && !y.lt x

/-- The order of VMIN and VMAX: -0 below +0 (R239). -/
def Num.below (x y : Num) : Bool := x.lt y || (x.eq y && x.neg && !y.neg)

/-- The smaller of two numbers, a NaN with any (R239). -/
def Num.min (x y : Num) : Num := if x.isNan || y.isNan then .nan else if y.below x then y else x
/-- The larger of two numbers, a NaN with any (R239). -/
def Num.max (x y : Num) : Num := if x.isNan || y.isNan then .nan else if x.below y then y else x

/-- An integer as a number (R230). -/
def Num.ofInt (i : Int) : Num := .fin (decide (i < 0)) i.natAbs 0

/-- R230: a number rounded to an integer of w bits, clamped; a NaN gives 0. -/
def Num.toInt (rm : Rm) (w : Nat) : Num → Int
  | .nan => 0
  | .inf neg => if neg then -(2 ^ (w - 1) : Int) else (2 ^ (w - 1) : Int) - 1
  | .fin neg m e =>
    let v := signedInt neg (quantize rm neg m e 0)
    if v < -(2 ^ (w - 1) : Int) then -(2 ^ (w - 1) : Int) else if (2 ^ (w - 1) : Int) - 1 < v then (2 ^ (w - 1) : Int) - 1 else v

/-- The rounding mode of a code (R228). -/
def rmOf (n : Nat) : Rm :=
  match n % 4 with
  | 0 => .rne
  | 1 => .rtz
  | 2 => .rup
  | _ => .rdn

/-! ### The approximate forms (R242) -/

/-- R242 steps 2 to 4: a positive magnitude, known as the floor m * 2^e of the true value with at least 24 more bits
than are kept, cut into FP32. -/
def cut (neg : Bool) (m : Nat) (e : Int) : Nat :=
  let top := e + (bitLen m : Int) - 1
  if m = 0 then Flt.f32.signed neg 0
  else if 128 ≤ top then Flt.f32.signed neg Flt.f32.inf
  else
    let q := if top < -126 then -149 else top - 11
    let n := quantize .rtz false m e q
    Flt.f32.round .rtz (.fin neg n q)

/-- FRCPA: the reciprocal (R242). -/
def recip (bits : Nat) : Nat :=
  match Flt.f32.read bits with
  | .nan => Flt.f32.nan
  | .inf neg => Flt.f32.signed neg 0
  | .fin neg m e =>
    if m = 0 then Flt.f32.signed neg Flt.f32.inf
    else
      let k := bitLen m + 40
      cut neg (2 ^ k / m) (-e - k)

/-- The integer square root below 2^b of n, bits from b - 1 down, on top of r. -/
def isqrt (n : Nat) : Nat → Nat → Nat
  | 0, r => r
  | b + 1, r => let c := r + 2 ^ b; isqrt n b (if c * c ≤ n then c else r)

/-- FRSQA: the reciprocal square root (R242). -/
def recipSqrt (bits : Nat) : Nat :=
  match Flt.f32.read bits with
  | .nan => Flt.f32.nan
  | .inf neg => if neg then Flt.f32.nan else 0
  | .fin neg m e =>
    if m = 0 then Flt.f32.signed neg Flt.f32.inf
    else if neg then Flt.f32.nan
    else
      let m' := if e % 2 = 0 then m else 2 * m
      let h := e / 2
      let k := bitLen m' + 40
      cut false (isqrt (2 ^ (2 * k) / m') k 0) (-h - k)

/-- The first k binary digits after the point of the logarithm to base 2 of x / 2^p, for x in [2^p, 2^(p+1)): by squaring,
each square cut to p bits. -/
def logDigits (p : Nat) : Nat → Nat → Nat → Nat
  | 0, _, acc => acc
  | k + 1, x, acc =>
    let y := x * x / 2 ^ p
    if 2 ^ (p + 1) ≤ y then logDigits p k (y / 2) (2 * acc + 1) else logDigits p k y (2 * acc)

/-- Whether c / 2^b, in [1, 2), is at most 2^(f / 2^64). Only 1 has a rational logarithm there. -/
def atMostExp (c b f : Nat) : Bool := c == 2 ^ b || decide (logDigits 192 64 (c * 2 ^ (192 - b)) 0 < f)

/-- The largest c / 2^b at most 2^(f / 2^64), its bits set from bit k - 1 down. -/
def expBits (b f : Nat) : Nat → Nat → Nat
  | 0, c => c
  | k + 1, c => expBits b f k (if atMostExp (c + 2 ^ k) b f then c + 2 ^ k else c)

/-- FEXP2A: two to the power (R242). -/
def exp2 (bits : Nat) : Nat :=
  match Flt.f32.read bits with
  | .nan => Flt.f32.nan
  | .inf neg => if neg then 0 else Flt.f32.inf
  | .fin neg m e =>
    if m = 0 then Flt.f32.round .rtz (.fin false 1 0)
    else if 9 < e + (bitLen m : Int) then (if neg then 0 else Flt.f32.inf)
    else
      let scaled := signedInt neg (m * 2 ^ (e + 214).toNat) / 2 ^ 150   -- a * 2^64, cut down
      let i := scaled / 2 ^ 64
      let f := (scaled % 2 ^ 64).toNat
      if 128 ≤ i then Flt.f32.inf
      else if i < -149 then 0
      else
        let b := if i < -126 then (i + 149).toNat else 11
        Flt.f32.round .rtz (.fin false (expBits b f b (2 ^ b)) (i - b))

/-! ### Operations on encodings -/

/-- An operation of two numbers on encodings of a format, rounded once (R239). -/
def Flt.op2 (f : Flt) (rm : Rm) (g : Num → Num → Num) (x y : Nat) : Nat := f.round rm (g (f.read x) (f.read y))

/-- A sum of encodings. -/
def Flt.sum (f : Flt) (rm : Rm) (x y : Nat) : Nat := f.op2 rm (Num.add rm) x y
/-- A difference of encodings. -/
def Flt.diff (f : Flt) (rm : Rm) (x y : Nat) : Nat := f.op2 rm (fun a b => a.add rm b.negate) x y
/-- A product of encodings. -/
def Flt.prod (f : Flt) (rm : Rm) (x y : Nat) : Nat := f.op2 rm Num.mul x y
/-- x * y + z, rounded once. -/
def Flt.fma (f : Flt) (rm : Rm) (x y z : Nat) : Nat := f.round rm ((f.read z).add rm ((f.read x).mul (f.read y)))
/-- z - x * y, rounded once. -/
def Flt.fms (f : Flt) (rm : Rm) (x y z : Nat) : Nat := f.round rm ((f.read z).add rm ((f.read x).mul (f.read y)).negate)
/-- The smaller of two encodings. -/
def Flt.least (f : Flt) (x y : Nat) : Nat := f.op2 .rne Num.min x y
/-- The larger of two encodings. -/
def Flt.most (f : Flt) (x y : Nat) : Nat := f.op2 .rne Num.max x y
/-- A conversion from one format to another (R230). -/
def Flt.convert (f g : Flt) (rm : Rm) (x : Nat) : Nat := g.round rm (f.read x)

end Sys2Proof.Machine
end

