-- ==== Sys2Proof/Machine/Convert.lean ====
section
/-! DEFINITION. Elements of the copy unit: their sizes, their conversion and their reduction (spec/16_matrix.md R275,
R276, by spec/14_numbers.md R230). -/

namespace Sys2Proof.Machine

/-- The size of a format's elements, given the raw size code (R275). -/
def fmtSize (f : Fmt) (esz : Nat) : Nat :=
  match f with
  | .raw => 2 ^ esz
  | .f32 => 4
  | .bf16 => 2
  | .e4m3 => 1
  | .e5m2 => 1
  | .i8 => 1
  | .i32 => 4

/-- A format's code (R275); 7 is none. -/
def fmtOf (n : Nat) : Option Fmt :=
  match n with
  | 0 => some .raw
  | 1 => some .f32
  | 2 => some .bf16
  | 3 => some .e4m3
  | 4 => some .e5m2
  | 5 => some .i8
  | 6 => some .i32
  | _ => none

/-- An element widened exactly (R276). -/
def widen (f : Fmt) (v : Nat) : Num :=
  match f with
  | .raw => .fin false v 0
  | .f32 => Flt.f32.read v
  | .bf16 => Flt.bf16.read v
  | .e4m3 => Flt.e4m3.read v
  | .e5m2 => Flt.e5m2.read v
  | .i8 => Num.ofInt (BitVec.ofNat 8 v).toInt
  | .i32 => Num.ofInt (BitVec.ofNat 32 v).toInt

/-- A number rounded once into a format (R229, R230). (DEDUCED, log entry 29) -/
def narrow (f : Fmt) (rm : Rm) (x : Num) : Nat :=
  match f with
  | .raw => 0
  | .f32 => Flt.f32.round rm x
  | .bf16 => Flt.bf16.round rm x
  | .e4m3 => Flt.e4m3.round rm x
  | .e5m2 => Flt.e5m2.round rm x
  | .i8 => (BitVec.ofInt 8 (x.toInt rm 8)).toNat
  | .i32 => (BitVec.ofInt 32 (x.toInt rm 32)).toNat

/-- An INT32 sum of a reduction wraps; an infinity clamps as in R230, a NaN gives 0. -/
def narrowWrap (rm : Rm) : Num → Nat
  | .fin neg m e => (BitVec.ofInt 32 (signedInt neg (quantize rm neg m e 0))).toNat
  | x => narrow .i32 rm x

/-- A source element's exact scaled value (R276). -/
def scaled (sf : Fmt) (scale : BitVec 32) (src : List Byte) : Num :=
  (widen sf (leNat src)).mul (Flt.f32.read scale.toNat)

/-- An element converted from SF to DF (R276); raw elements are copied. -/
def convertElem (sf df : Fmt) (rm : Rm) (scale : BitVec 32) (src : List Byte) : List Byte :=
  if sf = .raw then src else leBytes (fmtSize df 0) (narrow df rm (scaled sf scale src))

/-- CP.RED's new value of a destination element: the exact sum of the old value and the scaled source, rounded once
(R276). -/
def reduceElem (sf df : Fmt) (rm : Rm) (scale : BitVec 32) (old src : List Byte) : List Byte :=
  let v := (widen df (leNat old)).add rm (scaled sf scale src)
  leBytes (fmtSize df 0) (if df = .i32 then narrowWrap rm v else narrow df rm v)

/-- The cells of one element of a reduction, over the destination's old bytes; a poisoned element is read as 0 (R279).
(DEDUCED, log entry 18) -/
def reduceCells (sf df : Fmt) (rm : Rm) (scale : BitVec 32) (a : Nat) (old src : List Byte) (bad : Bool) : List (Nat × Byte) :=
  ((reduceElem sf df rm scale (if bad then old.map fun _ => 0 else old) src).zipIdx).map fun b => (a + b.2, b.1)

end Sys2Proof.Machine
end

