-- ==== Sys2Proof/Machine/Home.lean ====
section
/-! DEFINITION. The home slice (spec/03_hierarchy.md R38 to R45, spec/07_order_wide.md R110, R117 to R119,
spec/09_towline.md R135 to R143): fills, reads, writes, atomics, probes, evictions and tows. -/

namespace Sys2Proof.Machine

/-! ### Lines -/

/-- A line changed in place. -/
def modLine (s : State) (h cid line : Nat) (f : HomeLine → HomeLine) : State :=
  modSlice s h fun x => { x with lines := x.lines.map fun l => if l.cid == cid && l.line == line then f l else l }

/-- A line removed. -/
def delLine (s : State) (h cid line : Nat) : State :=
  modSlice s h fun x => { x with
    lines := x.lines.filter fun l => !(l.cid == cid && l.line == line)
    vecs := x.vecs.filter fun v => !(v.1 == cid && v.2 == line) }

/-- A line that something is awaited for serves no access (R39, R110, R119). -/
def lineBusy (x : HomeLine) : Bool :=
  x.filling || x.acks != 0 || x.memWait || x.evicting || x.bi.any fun b => b.blocking

/-- Whether an access writes the line, or probes its holders as a write does. -/
def opWrites : MemOp → Bool
  | .read _ => false
  | .flush => false
  | .host _ .rdShared => false
  | .host _ .inv => false
  | _ => true

/-- Whether an access must wait for what its line awaits; a tow that is out keeps out writes only (R139). -/
def keptOut (x : HomeLine) (r : Access) : Bool := lineBusy x || (x.towing != 0 && opWrites r.op)

/-- A new line entry. -/
def newLine (cid line way : Nat) : HomeLine :=
  { cid := cid, line := line, way := way, data := none, dirty := false, mode := 0, ptrs := [], clus := [],
    hh0 := 0, hh1 := 0, filling := false, acks := 0, dirtyHit := false, memWait := false, towing := 0,
    evicting := false, bi := [], current := none, old := [], hp := false, bad := 0, grant := none, tows := [],
    waiting := [] }

/-- The set of a line: L[14:6] (R38). -/
def lineSet (line : Nat) : Nat := line / 64 % 512

/-- The bytes an entry's answers occupy (R316). (DEDUCED, log entry 22) -/
def answerBytes (e : Entry) : Nat := e.answers.foldl (fun n a => n + 8 * a.length + 8) 0

/-- The bytes of answers that a slice holds (R316). (DESIGN CHOICE, log entry 6) -/
def heldBytes (s : State) (h : Nat) : Nat :=
  ((die s (dieOfCluster h)).table.entries.filter fun e => e.slice == h).foldl (fun n e => n + answerBytes e) 0

/-- How many ways of a set hold lines: answer storage grows from zero into ways 12 to 15, 512 bytes of each set, in the
order of the sets (R38, R316); a way that is retired holds none (R393). (DESIGN CHOICE, log entry 6) -/
def waysOf (s : State) (h set : Nat) : Nat := (if 512 * set < heldBytes s h then 12 else 16) - retiredWays s 5 h

/-- The state of a half (R43). -/
def halfState (x : HomeLine) (h : Nat) : Nat := if h = 0 then x.hh0 else x.hh1
/-- A half's state set. -/
def setHalf (x : HomeLine) (h v : Nat) : HomeLine := if h = 0 then { x with hh0 := v } else { x with hh1 := v }

/-- The bytes of a range of a line. -/
def lineBytes (x : HomeLine) (a n : Nat) : List Byte := ((x.data.getD []).drop (a % 128)).take n

/-- A line's bytes with cells written. -/
def mergeCells (data : List Byte) (cells : List (Nat × Byte)) : List Byte :=
  cells.foldl (fun d c => d.set (c.1 % 128) c.2) data

/-- The halves that an access touches. -/
def halvesOf (a n : Nat) : List Nat :=
  let o := a % 128
  (if o < 64 then [0] else []) ++ (if 64 < o + n then [1] else [])

/-! ### Tree pseudo-LRU (R38; the tree's bits are the model's, log entry 6) -/

/-- The tree after a use of a way. (DESIGN CHOICE, log entry 6) -/
def plruTouch (b : BitVec 16) (way : Nat) : BitVec 16 :=
  let step := fun (p : BitVec 16 × Nat) (lv : Nat) =>
    let right := way / 2 ^ lv % 2
    (if right = 1 then p.1 &&& ~~~ (BitVec.ofNat 16 (2 ^ p.2)) else p.1 ||| BitVec.ofNat 16 (2 ^ p.2), 2 * p.2 + right)
  ([3, 2, 1, 0].foldl step (b, 1)).1

/-- The way that the tree names among candidates. (DESIGN CHOICE, log entry 6) -/
def plruVictim (b : BitVec 16) (cands : List Nat) : Nat :=
  let step := fun (p : Nat × Nat) (lv : Nat) =>
    -- p.1: the node, p.2: the way bits chosen so far
    let want := (b.getLsbD p.1).toNat
    let has := fun d => cands.any fun w => w / 2 ^ lv == 2 * p.2 + d
    let d := if has want then want else 1 - want
    (2 * p.1 + d, 2 * p.2 + d)
  ([3, 2, 1, 0].foldl step (1, 0)).2

/-- A use of a line's way noted. -/
def useWay (s : State) (h : Nat) (x : HomeLine) : State :=
  modSlice s h fun y =>
    { y with plru := put y.plru (lineSet x.line) (plruTouch ((find y.plru (lineSet x.line)).getD 0) x.way) }

/-! ### Directory (R43, R44) -/

/-- The cores that a line's entry makes the home probe. -/
def recordedCores (x : HomeLine) : List Nat :=
  if x.mode = 1 then x.ptrs
  else if x.mode = 2 then x.clus.flatMap fun k => (List.range 8).map fun i => k * 8 + i
  else []

/-- Whether the entry records a core (R44). -/
def records (x : HomeLine) (c : Nat) : Bool :=
  (x.mode == 1 && x.ptrs.contains c) || (x.mode == 2 && x.clus.contains (clusterOf c))

/-- An invalidation probe to each recorded core but one. -/
def l1Probes (h : Nat) (x : HomeLine) (but : Option Nat) : List Event :=
  ((recordedCores x).filter fun c => some c != but).map fun c => .invalidationProbe c h x.cid x.line

/-- R44, R139: whether an L1 fill by a core, or a tow to it, must wait: it takes the least recently allocated vector record,
and a tow of that record's line is out, which a probe could overtake. -/
def recordWaits (s : State) (h : Nat) (x : HomeLine) (c : Nat) : Bool :=
  x.mode == 1 && !x.ptrs.contains c && decide (4 ≤ x.ptrs.length) && decide (1024 ≤ (slice s h).vecs.length) &&
    (((slice s h).vecs.head?.bind fun v => lineAt s h v.1 v.2).map fun y => y.towing != 0).getD false

/-- R44: an L1 fill by a core is recorded; a fifth core moves the entry to vector mode, taking the least
recently allocated vector record when all 1,024 are in use. -/
def recordCore (s : State) (h cid line c : Nat) : State :=
  match lineAt s h cid line with
  | none => s
  | some x =>
    if x.mode = 0 then modLine s h cid line fun l => { l with mode := 1, ptrs := [c] }
    else if x.mode = 1 then
      if x.ptrs.contains c then s
      else if x.ptrs.length < 4 then modLine s h cid line fun l => { l with ptrs := l.ptrs ++ [c] }
      else
        let s := if (slice s h).vecs.length < 1024 then s
          else match (slice s h).vecs.head? with
            | none => s
            | some (c', l') =>
              let s := match lineAt s h c' l' with
                | some y =>
                  let ps := l1Probes h y none
                  postAll (modLine s h c' l' fun l => { l with mode := 0, ptrs := [], clus := [], acks := l.acks + ps.length }) ps
                | none => s
              modSlice s h fun y => { y with vecs := y.vecs.erase (c', l') }
        let ks := ((x.ptrs ++ [c]).map clusterOf).eraseDups
        modSlice (modLine s h cid line fun l => { l with mode := 2, ptrs := [], clus := ks }) h
          fun y => { y with vecs := y.vecs ++ [(cid, line)] }
    else modLine s h cid line fun l =>
      { l with clus := if l.clus.contains (clusterOf c) then l.clus else l.clus ++ [clusterOf c] }

/-- A line's basin holder records. -/
def holdersOf (s : State) (h cid line : Nat) : List Holder :=
  (slice s h).holders.filter fun r => r.cid == cid && r.line == line

/-! ### Towlines at the slice (R135 to R143) -/

/-- The descriptor that a handle names. -/
def towDesc (s : State) (hd : Nat) : Option Tow := find (die s (hd / 64)).tows (hd % 64)

/-- A tagged access's towline, if its core's cluster participates. -/
def towOf (s : State) (r : Access) : Option (Nat × Tow) :=
  r.handle.bind fun hd => (towDesc s hd).bind fun t =>
    if t.st != .idle && t.clusters.contains (clusterOf r.core) then some (hd, t) else none

/-- Where a slice stands in a towline's steps (R144). -/
def sliceStep (s : State) (h hd : Nat) : SliceStep := (find (slice s h).steps hd).getD .closed

/-- A 21-bit counter saturates (R143). -/
def sat21 (n : Nat) : Nat := if n > 2097151 then 2097151 else n

/-- Counts of a step added, saturating. -/
def addCounts (a b : Nat × Nat × Nat) : Nat × Nat × Nat :=
  (sat21 (a.1 + b.1), sat21 (a.2.1 + b.2.1), sat21 (a.2.2 + b.2.2))

/-- A slice's counts for a towline's open step raised. -/
def countTow (s : State) (h hd : Nat) (n : Nat × Nat × Nat) : State :=
  modSlice s h fun x => { x with counts := put x.counts hd (addCounts ((find x.counts hd).getD (0, 0, 0)) n) }

/-- R135, R138: a tagged write performed at the home: the step's writes, and the running counts of the
records whose producer it is; the answer is the tows that become due. A record whose count is reached has its TS set
even where the tow is then not sent, as when the host owns a half. (DESIGN CHOICE, log entry 47) -/
def noteTowWrite (s : State) (h : Nat) (r : Access) (line : Nat) : State × List (Nat × Nat × Nat) :=
  match towOf s r with
  | none => (s, [])
  | some (hd, _) =>
    let x := slice s h
    let order := x.writes.foldl (fun m w => if w.order < m then m else w.order + 1) 0
    let old := x.writes.find? fun w => w.handle == hd && w.line == line && w.core == r.core
    let n := (old.map fun w => w.count).getD 0 + 1
    let ws := (x.writes.filter fun w => !(w.handle == hd && w.line == line && w.core == r.core)) ++
      [{ handle := hd, line := line, core := r.core, count := if n > 15 then 15 else n, order := order }]
    let replay := sliceStep s h hd == .replaying || sliceStep s h hd == .deciding
    let mine := fun (w : TowRec) => replay && w.handle == hd && w.line == line && w.prod == r.core
    let due := (x.tows.filter fun w => mine w && !w.ts && decide (w.wc ≤ w.count + 1)).map fun w => (hd, w.cons, r.cache)
    let tows := x.tows.map fun w =>
      if mine w then { w with count := if w.count < 15 then w.count + 1 else 15, ts := w.ts || decide (w.wc ≤ w.count + 1) }
      else w
    (modSlice s h fun y => { y with writes := ws, tows := tows }, due)

/-- R135, R137: a tagged demand fill that is a transfer is recorded in an open recording step. -/
def recordTransfer (s : State) (h hd : Nat) (r : Access) (line : Nat) (w0 : StepWrite) : State :=
  let x := slice s h
  let mine := fun (w : TowRec) => w.handle == hd && w.line == line && w.cons == r.core
  let rec_ : TowRec :=
    { handle := hd, wc := w0.count, prod := w0.core, cons := r.core, ts := false, line := line, count := 0, sent := false }
  if x.tows.any mine then modSlice s h fun y => { y with tows := y.tows.map fun w => if mine w then rec_ else w }
  else if (x.tows.filter fun w => w.line % 2048 == line % 2048).length < 8 then
    modSlice s h fun y => { y with tows := y.tows ++ [rec_] }
  else
    modDie s (hd / 64) fun d => match find d.tows (hd % 64) with
      | some t' => { d with tows := put d.tows (hd % 64) { t' with part := true } }
      | none => d

/-- R135, R142: the last write of the step to a line by a participating core other than the filling one: what makes its
fill a transfer. -/
def lastWriter (s : State) (h hd : Nat) (t : Tow) (core line : Nat) : Option StepWrite :=
  ((slice s h).writes.filter fun w =>
    w.handle == hd && w.line == line && w.core != core && t.clusters.contains (clusterOf w.core)).foldl
    (fun (m : Option StepWrite) w => match m with
      | none => some w
      | some v => if v.order < w.order then some w else some v) none

/-- R138: a consumer's demand fill, tagged or not, sets TS in the records of the line that name it: no tow of them leaves
in this step, one that is due already among them. -/
def consumerFilled (s : State) (h core line : Nat) : State :=
  modSlice s h fun y => { y with tows := y.tows.map fun w => if w.line == line && w.cons == core then { w with ts := true, filled := true } else w }

/-- R135, R137, R138, R142: a demand fill served: a tagged one that is a transfer is recorded, or counted as
unpredicted; a replayed record whose consumer has filled sends no tow in this step. -/
def noteTowFill (s : State) (h : Nat) (r : Access) (line : Nat) : State :=
  let s := match (towOf s r).bind fun p => (lastWriter s h p.1 p.2 r.core line).map fun w => (p.1, w) with
    | none => s
    | some (hd, w0) =>
      match sliceStep s h hd with
      | .closed => s
      | .recording => recordTransfer s h hd r line w0
      | _ =>
        if (slice s h).tows.any fun w => w.handle == hd && w.line == line && w.cons == r.core && w.sent then s
        else countTow s h hd (0, 0, 1)
  consumerFilled s h r.core line

/-! ### Answers -/

/-- An access refused on its way (R26, R66, R208, R209): the answer goes from a node to who made it. -/
def refuse (s : State) (src : Nat) (r : Access) (rk who code : Nat) : State :=
  match r.agent with
  | .load slot => post s (.loadDataArrives ⟨src, slot⟩ r.tx r.addr ⟨.refused rk who, false⟩)
  | .flush _ slot => post s (.loadDataArrives ⟨src, slot⟩ r.tx r.addr ⟨.refused rk who, false⟩)
  | .journal c es => post s (.storeAck ⟨src, c⟩ es code none)
  | .writeBack c bn clus sl => post s (.writeBackAck ⟨src, c⟩ r.tx bn clus sl false ⟨false, false⟩ true)
  | .engine k j u => post s (.copyWriteAck ⟨src, k⟩ j u false false ⟨false, []⟩)
  | _ => s

/-- Whether a load stands behind an earlier die-local one of its thread that has not delivered (R99).
(DEDUCED, log entry 24) -/
def behind (t : Thread) (tx : Nat) : Bool :=
  (t.outs.takeWhile fun o => !o.pieces.any fun p => p.acc.tx == tx).any Outst.dieLocal

/-- R99, R100: a thread's load reads a location now; where it is die-local and stands behind an earlier one, and no probe
will tell of a later write, the value will have to be read again. (DEDUCED, log entry 24) -/
def readEarly (s : State) (slot tx : Nat) : State :=
  modThr s slot fun t =>
    if behind t tx then
      { t with outs := t.outs.map fun o =>
          if o.dieLocal && !o.atom then
            { o with pieces := o.pieces.map fun p => if p.near && p.acc.tx == tx then { p with early := true } else p }
          else o }
    else t

/-- A load's bytes on their way, with the offsets of those that are poisoned. -/
def sendData (s : State) (src slot : Nat) (r : Access) (bs : List Byte) (bad : List Nat) : State :=
  post s (.loadDataArrives ⟨src, slot⟩ r.tx r.addr ⟨if bad.isEmpty then .data bs else .poison bs bad, false⟩)

/-- A read's bytes answered where it was performed, which no probe guards. -/
def answerRead (s : State) (src : Nat) (r : Access) (bs : List Byte) (bad : List Nat) : State :=
  match r.agent with
  | .load slot => sendData (readEarly s slot r.tx) src slot r bs bad
  | .engine k j _ => wakeJob s k j
  | _ => s

/-- R390: a store message's acknowledgement: those of its entries that lie in a granule which the merge poisoned take code
POISON, the others none. -/
def ackEntries (s : State) (src c : Nat) (es : List Nat) (bad : BitVec 32) (hp : Option Nat) : State :=
  let ill := fun (e : Nat) => match find (core s c).journal e with
    | some j => wordMask (j.addr % 128) (2 ^ j.size) &&& bad != 0
    | none => false
  let good := es.filter fun e => !ill e
  let s := if good.isEmpty then s else post s (.storeAck ⟨src, c⟩ good 0 hp)
  if good.length = es.length then s
  else post s (.storeAck ⟨src, c⟩ (es.filter ill) 7 (if good.isEmpty then hp else none))

/-- The acknowledgement or result of the write, atomic or flush that a line has completed (R110, R115). -/
def answerWrite (s : State) (h : Nat) (x : HomeLine) (r : Access) : State :=
  let src := nodeSlice h
  match r.agent with
  | .load slot => post s (.loadDataArrives ⟨src, slot⟩ r.tx r.addr ⟨.data x.old, x.hp⟩)
  | .flush _ slot => post s (.loadDataArrives ⟨src, slot⟩ r.tx r.addr ⟨.data [], false⟩)
  | .journal c es => ackEntries s src c es x.bad (if x.hp then some r.tx else none)
  | .writeBack c bn clus sl =>
    let reg := (holdersOf s h x.cid x.line).any fun o => o.core == c && o.clus == clus && o.sline == sl && !o.recalling
    post s (.writeBackAck ⟨src, c⟩ r.tx bn clus sl reg ⟨x.dirtyHit, x.hp⟩ false)
  | .engine k j u =>
    let reads := match r.op with
      | .reduce _ _ _ _ _ => true
      | _ => false
    post s (.copyWriteAck ⟨src, k⟩ j u true x.hp ⟨reads && x.bad != 0, if reads then x.old else []⟩)
  | _ => s

/-! ### Atomics (R214) -/

/-- The new value of an atomic at a width of w bits, or none where an ACAS fails (R214, R215). -/
def atomicNew (op : Aop) (w old p n : Nat) : Option Nat :=
  let m := 2 ^ w
  let sg := fun (v : Nat) => (BitVec.ofNat w v).toInt
  let o := old % m
  let q := p % m
  match op with
  | .add => some ((o + q) % m)
  | .and => some (o &&& q)
  | .or => some (o ||| q)
  | .xor => some (o ^^^ q)
  | .min => some (if sg o ≤ sg q then o else q)
  | .max => some (if sg o ≤ sg q then q else o)
  | .minu => some (if o ≤ q then o else q)
  | .maxu => some (if o ≤ q then q else o)
  | .swp => some q
  | .cas => if o = q then some (n % m) else none

/-! ### Serving an access (R39, R110, R119) -/

/-- The words that cells write, as a mask of the line. -/
def cellMask (cells : List (Nat × Byte)) : BitVec 32 :=
  BitVec.ofNat 32 ((List.range 32).foldl
    (fun m w => if cells.any fun c => c.1 % 128 / 4 == w then m + 2 ^ w else m) 0)

/-- The poison marks after cells are written into a line with granules of g bytes, and the granules that the merge poisoned
(R389, R390). (DEDUCED, log entry 18) -/
def poisonCells (s : State) (g line : Nat) (cells : List (Nat × Byte)) : State × List Nat :=
  if poisoned s (line * 128) 128 then
    ((List.range (128 / g)).foldl (fun (p : State × List Nat) i =>
      let base := line * 128 + g * i
      let n := (cells.filter fun c => decide (base ≤ c.1) && decide (c.1 < base + g)).length
      if n = 0 || !poisoned p.1 base g then p
      else if n = g then ({ p.1 with poison := p.1.poison.filter fun w => !(decide (base ≤ w) && decide (w < base + g)) }, p.2)
      else (markPoison p.1 base g, p.2 ++ [base])) (s, []))
  else (s, [])

/-- The words of a line that some granules of g bytes cover. -/
def granuleMask (g : Nat) (bases : List Nat) : BitVec 32 := bases.foldl (fun m b => m ||| wordMask (b % 128) g) 0

/-- The granule of a write at its home: a word in the L2, else that of the memory (R52). -/
def homeGranule (uncached : Bool) (line : Nat) : Nat := if uncached then granule (line * 128) else 4

/-- R389: words that a write brings poisoned leave their granules poisoned. -/
def bringPoison (s : State) (g line : Nat) (words : List Nat) : State :=
  words.foldl (fun s w => markPoison s ((line * 128 + 4 * w) / g * g) g) s

/-- R390, R392: whom the record of a poisoned merge names: the thread's identifier and slot, or 0 for an engine.
(DEDUCED, log entry 18) -/
def writer (s : State) (r : Access) : Nat × Nat :=
  match r.agent with
  | .journal c es => match es.head?.bind (find (core s c).journal) with
    | some j => (j.swid, j.slot)
    | none => (0, 0)
  | .load slot => (((thr s slot).map Thread.swid).getD 0, slot)
  | _ => (0, 0)

/-- R119: whether a host request takes a half for ownership, which writes no byte. -/
def takesHalf (r : Access) : Bool :=
  match r.op with
  | .host _ .rdOwn => true
  | _ => false

/-- R386, R389: words of a line that are poisoned in the home's copy alone, as those that no response has brought: a copy that
leaves unchanged leaves memory's own bytes good. (DESIGN CHOICE, log entry 39) -/
def regain (s : State) (x : HomeLine) : State := if x.dirty then s else clearMarks s x.line x.lost

/-- R28, R39: a write of an uncached page performed at memory: the home's copy, written back if it differs, is dropped;
while the host holds a half it stays, written through, since the half's state stands beside it. -/
def writeUncached (s : State) (h : Nat) (x : HomeLine) (cells : List (Nat × Byte)) : State :=
  let s := regain (if x.dirty then memBack s x.cid x.line (x.data.getD []) else s) x
  let s := memUncached s x.cid x.line cells
  let data := if x.hh0 == 0 && x.hh1 == 0 then none else x.data.map fun d => mergeCells d cells
  post (modLine s h x.cid x.line fun l => { l with data := data, dirty := false, memWait := true, lost := [] })
    (.memoryReplyAtHome h x.cid x.line)

/-- The structure in which a home's write merges (R392): its L2, or the memory of an uncached page. -/
def storeCode (uncached : Bool) (pa : Nat) : Nat := if !uncached then 5 else if pa < 2 ^ 43 then 8 else 10

/-- Whether the host asks for a half, or brings one back: the line is kept then, whatever its page (R119). -/
def ofHalf (r : Access) : Bool :=
  match r.op with
  | .host _ _ => true
  | _ => false

/-- A write performed at its home: the line's bytes, the directory, the probes to L1s, basin holders and the
host, and what is then awaited (R44, R64, R119). -/
def performWrite (s : State) (h : Nat) (x : HomeLine) (r : Access) (cells : List (Nat × Byte)) (old : List Byte) : State :=
  let uncached := r.cache == 2 && !ofHalf r
  let mask := cellMask cells
  -- who is left out of the probes (R44)
  let own : Option Nat := if uncached then none else match r.agent with
    | .journal c _ => if records x c then some c else none
    | .load _ => if records x r.core then some r.core else none
    | _ => none
  let lp := l1Probes h x own
  let isOwn := fun (o : Holder) => match r.agent with
    | .writeBack c _ clus sl => o.core == c && o.clus == clus && o.sline == sl
    | _ => false
  let fromBasin := match r.agent with
    | .writeBack _ _ _ _ => true
    | _ => false
  let bp : List Event := ((holdersOf s h x.cid x.line).filter fun o => !isOwn o).map fun o =>
    .basinInvalidationProbe o.core o.clus o.sline h x.cid x.line mask.toNat fromBasin
  -- the host's shared halves (R119): performed at once, host-done once all have answered (R115)
  let shared := if r.agent == .host then [] else
    ([0, 1].filter fun k => halfState x k == 1 && cells.any fun c => c.1 % 128 / 64 == k)
  let bis : List BackInv := shared.map fun k => { half := k, inv := true, blocking := false, done := some (r.agent, r.tx) }
  let g := homeGranule uncached x.line
  let (s, bad) := if takesHalf r then (s, []) else poisonCells s g x.line cells
  let logged := fun (s : State) (a : Nat) => mergeError s a (storeCode uncached a) (writer s r).1 (writer s r).2 h x.cid (dieOfCluster h)
  let s := bringPoison (bad.foldl logged s) g x.line r.bad
  let (s, tows) := noteTowWrite s h r x.line
  let s := if uncached then writeUncached s h x cells
    else modLine s h x.cid x.line fun l => { l with data := l.data.map (fun d => mergeCells d cells), dirty := true }
  let s := modLine s h x.cid x.line fun l => { l with
    mode := if own.isSome then 1 else 0
    ptrs := own.toList
    clus := []
    acks := l.acks + lp.length + bp.length
    dirtyHit := false
    bi := l.bi ++ bis
    current := some r
    old := old
    hp := !shared.isEmpty
    bad := granuleMask g bad
    tows := tows }
  let s := modSlice s h fun y => { y with vecs := y.vecs.filter fun v => !(v.1 == x.cid && v.2 == x.line) }
  postAll s (lp ++ bp)

/-- Put an access back at the head of its line's waiting list. -/
def waitFirst (s : State) (h : Nat) (x : HomeLine) (r : Access) : State :=
  modLine s h x.cid x.line fun l => { l with waiting := r :: l.waiting }

/-- Ask the host to give up or share halves before the access is served (R119). -/
def backInvalidate (s : State) (h : Nat) (x : HomeLine) (r : Access) (halves : List Nat) (inv : Bool) : State :=
  modLine (waitFirst s h x r) h x.cid x.line fun l =>
    { l with bi := l.bi ++ halves.map fun k => { half := k, inv := inv, blocking := true, done := none } }

/-- A basin fill's holder record (R60, R62): found, newly allocated, or waiting for a recall (R68). -/
def holdLine (s : State) (h : Nat) (x : HomeLine) (core : Nat) (clus : Bool) (sline : Nat) : Option State :=
  if (holdersOf s h x.cid x.line).any fun o => o.core == core && o.clus == clus && o.sline == sline then some s
  else if (slice s h).holders.length < 4096 then
    some (modSlice s h fun y => { y with holders := y.holders ++
      [{ cid := x.cid, core := core, clus := clus, line := x.line, sline := sline, recalling := false }] })
  else none

/-- The state with an entry for a line that the L2 does not hold, so that something can be awaited for it. -/
def withLine (s : State) (h cid line : Nat) : State :=
  match lineAt s h cid line with
  | some _ => s
  | none => modSlice s h fun y => { y with lines := y.lines ++ [newLine cid line 0] }

/-- R68, R139: the least recently allocated holder record is recalled, of those whose line has no tow out. -/
def recallOldest (s : State) (h : Nat) : State :=
  match (slice s h).holders.find? fun o => !o.recalling && ((lineAt s h o.cid o.line).map fun l => l.towing == 0).getD true with
  | none => s
  | some o =>
    let s := modSlice s h fun y => { y with holders := y.holders.map fun p => if p == o then { p with recalling := true } else p }
    let s := modLine (withLine s h o.cid o.line) h o.cid o.line fun l => { l with acks := l.acks + 1 }
    post s (.recallProbe o.core o.clus o.sline h o.cid o.line)

/-- A due tow as an access of its home. -/
def towAccess (s : State) (cid line hd cons cache : Nat) : Access :=
  { tx := s.nextTx, agent := .tow hd cons, core := cons, cid := cid, kind := .glob, tgt := 0, addr := line * 128, op := .read 128,
    scope := .th, xlated := true, phys := line * 128, home := none, cache := cache, common := false, tracked := false,
    handle := none, m := false }

/-- A request of a slice waits for room: a way, a holder record or a vector record. -/
def waitRoom (s : State) (h : Nat) (r : Access) : State := modSlice s h fun y => { y with noRoom := y.noRoom ++ [r] }

/-- A tow leaves for its consumer, unless the line may not be towed (R138, R139, R391): it is delivered into a basin that
has a holder record, else into the L1, which takes only lines of cached pages (R30). One whose step is not decided waits
for that; one that awaited probe acknowledgements when its step closed leaves in the step that is open now, and counts as
sent there. (DESIGN CHOICE, log entry 47) -/
def sendTow (s : State) (h cid line hd cons cache : Nat) : State :=
  match sliceStep s h hd, lineAt s h cid line with
  | .deciding, _ => modSlice s h fun y => { y with dueTows := y.dueTows ++ [(cid, line, hd, cons, cache)] }
  | .replaying, some x =>
    let filled := (slice s h).tows.any fun w => w.handle == hd && w.line == line && w.cons == cons && w.filled
    if filled || x.hh0 == 2 || x.hh1 == 2 || poisoned s (line * 128) 128 then s
    else
      let data := x.data.getD []
      let sent := fun (s : State) => modSlice (modLine s h cid line fun l => { l with towing := l.towing + 1 }) h fun y =>
        { y with tows := y.tows.map fun w =>
            if w.handle == hd && w.line == line && w.cons == cons then { w with sent := true } else w }
      if (holdersOf s h cid line).any fun o => o.core == cons then
        post (sent s) (.towArrivesBasin cons h cid line hd data)
      else if cache = 0 && recordWaits s h x cons then waitRoom (tick s) h (towAccess s cid line hd cons cache)
      else if cache = 0 then post (sent (recordCore s h cid line cons)) (.towArrivesL1 cons h cid line hd data)
      else s
  | _, _ => s

/-- A read served from a line that is present (R37, R44, R62, R118, R391). -/
def serveRead (s : State) (h : Nat) (x : HomeLine) (r : Access) (n : Nat) : State :=
  let s := meet (useWay s h x) (if r.cache = 0 || n = 128 then x.line * 128 else r.phys) (if r.cache = 0 then 128 else n)
  let owned := x.hh0 == 2 || x.hh1 == 2
  let carried : Carried := { bytes := x.data.getD [], bad := badWords s x.line }
  match r.agent with
  | .fill core clus sline =>
    match holdLine s h x core clus sline with
    | some s =>
      let s := noteTowFill s h r x.line
      post s (.basinFillLands ⟨nodeSlice h, core⟩ clus sline true carried)
    | none => recallOldest (waitRoom s h r) h
  | .prefetch core =>
    if n = 128 && !owned && recordWaits s h x core then waitRoom s h r
    else if n = 128 then
      let s := if owned then s else recordCore (noteTowFill s h r x.line) h x.cid x.line core
      post s (.l1FillLands ⟨nodeSlice h, core⟩ x.cid x.line (!owned) carried)
    else s
  | .load slot =>
    if r.cache = 0 && !owned && recordWaits s h x r.core then waitRoom s h r
    else if r.cache = 0 then
      -- a line with a half that the host owns fills no L1: the home records no holder, and no probe will come (R118)
      let s := if owned then readEarly s slot r.tx else recordCore (noteTowFill s h r x.line) h x.cid x.line r.core
      post s (.l1FillLands ⟨nodeSlice h, r.core⟩ x.cid x.line (!owned) carried)
    else answerRead s (nodeSlice h) r (lineBytes x r.phys n) (badBytes s r.phys n)
  | .engine _ _ _ => answerRead s (nodeSlice h) r [] []
  | .tow hd cons => sendTow s h x.cid x.line hd cons r.cache
  | _ => s

/-- An access served at its home by a line that is present and idle. A MemRd Shared of a half that the host owns, which
the table of R119 does not list, makes it shared with no other act; a MemInv of a half that is not shared changes nothing.
(DESIGN CHOICE, log entry 46) -/
def serveLine (s : State) (h : Nat) (x : HomeLine) (r : Access) : State :=
  match r.op with
  | .read n =>
    let hs := match r.agent with
      | .fill _ _ _ => [0, 1]
      | .tow _ _ => []
      | .prefetch _ => if n = 128 then halvesOf r.phys 1 else if n = 127 then [0, 1] else []
      | _ => halvesOf r.phys n
    let own := hs.filter fun k => halfState x k == 2
    if own.isEmpty then serveRead s h x r n else backInvalidate s h x r own false
  | .write cells =>
    let own := [0, 1].filter fun k => halfState x k == 2 && cells.any fun c => c.1 % 128 / 64 == k
    if own.isEmpty then performWrite (useWay s h x) h x r cells [] else backInvalidate s h x r own true
  | .atomic op size p n =>
    let own := (halvesOf r.phys size).filter fun k =>
      halfState x k == 2 || (halfState x k == 1 && r.scope == .sy)
    if !own.isEmpty then backInvalidate s h x r own true
    else
      let old := lineBytes x r.phys size
      if poisoned s r.phys size then answerRead (meet s r.phys size) (nodeSlice h) r old (badBytes s r.phys size)
      else
        match atomicNew op (8 * size) (leNat old) p.toNat n.toNat with
        | none => answerRead (useWay s h x) (nodeSlice h) r old []
        | some v => performWrite (useWay s h x) h x r (cellsAt r.phys (leBytes size v)) old
  | .reduce _ _ _ _ _ => s
  | .flush =>
    let s := if x.dirty then
        memThrough (modLine s h x.cid x.line fun l => { l with dirty := false, lost := [] }) x.cid x.line (x.data.getD [])
      else s
    answerWrite s h x r
  | .host half .rdShared => modLine s h x.cid x.line fun l => setHalf l half 1
  | .host half .inv => modLine s h x.cid x.line fun l => if halfState l half == 1 then setHalf l half 0 else l
  | .host half .rdOwn =>
    let cells := (List.range 64).map fun i => (x.line * 128 + half * 64 + i, (x.data.getD []).getD (half * 64 + i) 0)
    let s := performWrite s h { x with hh0 := 0, hh1 := 0 } r cells []
    modLine s h x.cid x.line fun l => { l with dirty := x.dirty, grant := some (half, 2) }
  | .host half (.wr data m) =>
    let cells := cellsAt (x.line * 128 + half * 64) (data.take 64)
    let s := performWrite s h { x with hh0 := 0, hh1 := 0 } r cells []
    modLine s h x.cid x.line fun l => { l with grant := some (half, m) }

/-! ### Fills and evictions (R38, R39) -/

/-- A line's data written back to memory if it differs, and the line dropped. The write-backs of the common and the private
copy of one line, whose order R32 leaves open, reach the memory side in the order in which the two leave the L2.
A line of an uncached page takes no place in the memory-side cache (R28). (DESIGN CHOICE, log entry 46) -/
def dropLine (s : State) (h : Nat) (x : HomeLine) : State :=
  let data := x.data.getD []
  let s := if !x.dirty then regain s x
    else if x.transient then memUncached s x.cid x.line (cellsAt (x.line * 128) data)
    else memBack s x.cid x.line data
  delLine s h x.cid x.line

/-- R38: the eviction of a line that has holders begins: probes, recalls and back-invalidations. -/
def beginEvict (s : State) (h : Nat) (x : HomeLine) : State :=
  let lp := l1Probes h x none
  let hs := holdersOf s h x.cid x.line
  let rp : List Event := hs.map fun o => .recallProbe o.core o.clus o.sline h x.cid x.line
  let bis : List BackInv := ([0, 1].filter fun k => halfState x k != 0).map fun k =>
    { half := k, inv := true, blocking := true, done := none }
  let recalled := fun (o : Holder) => if o.cid == x.cid && o.line == x.line then { o with recalling := true } else o
  let s := modSlice s h fun y => { y with
    holders := y.holders.map recalled
    vecs := y.vecs.filter fun v => !(v.1 == x.cid && v.2 == x.line) }
  postAll (modLine s h x.cid x.line fun l => { l with
    evicting := true, acks := l.acks + lp.length + rp.length, bi := l.bi ++ bis, mode := 0, ptrs := [], clus := [] })
    (lp ++ rp)

/-- Whether a line has holders (R38). -/
def hasHolders (s : State) (h : Nat) (x : HomeLine) : Bool :=
  x.mode != 0 || x.hh0 != 0 || x.hh1 != 0 || !(holdersOf s h x.cid x.line).isEmpty

/-- Whether a line may leave the L2 now: nothing is awaited for it, the host's answers among it (R119), and no tow of it is
out (R139). -/
def mayLeave (x : HomeLine) : Bool :=
  !lineBusy x && x.bi.isEmpty && x.towing == 0 && x.waiting.isEmpty && x.current.isNone

/-- R38, R316: lines in ways that a set has lent to answer storage leave the L2 as soon as they may, as victims do. -/
def vacate (s : State) (h set : Nat) : State :=
  let ways := waysOf s h set
  let out := (slice s h).lines.filter fun x => lineSet x.line == set && x.data.isSome && decide (ways ≤ x.way) && mayLeave x
  out.foldl (fun s x => if hasHolders s h x then beginEvict s h x else dropLine s h x) s

/-- A way of a line's set for it: free, or freed by the drop of a victim without holders. None while every line without
holders is busy, or the set must first lose a line with holders, as every way has them (R38). -/
def wayFor (s : State) (h line : Nat) : State × Option Nat :=
  let set := lineSet line
  let ways := waysOf s h set
  let inSet := (slice s h).lines.filter fun x => lineSet x.line == set && (x.data.isSome || x.filling)
  match (List.range ways).find? fun w => !(inSet.any fun x => x.way == w) with
  | some w => (s, some w)
  | none =>
    let idle := inSet.filter fun x => mayLeave x && decide (x.way < ways)
    let plain := idle.filter fun x => !hasHolders s h x
    let tree := (find (slice s h).plru set).getD 0
    if !plain.isEmpty then
      let w := plruVictim tree (plain.map fun x => x.way)
      match plain.find? fun x => x.way == w with
      | some x => (dropLine s h x, some w)
      | none => (s, none)
    else if inSet.any fun x => x.evicting || (decide (x.way < ways) && !hasHolders s h x) then (s, none)
    else
      let w := plruVictim tree (idle.map fun x => x.way)
      match idle.find? fun x => x.way == w with
      | some x => (beginEvict s h x, none)
      | none => (s, none)

/-- A fill of a line from memory is under way, and an access waits for it; a line filled for an uncached page leaves the L2
with that access, and takes no place in the memory-side cache (R28, R38, R39).
(DESIGN CHOICE, log entry 17; DEDUCED, log entry 31) -/
def fillLine (s : State) (h cid line : Nat) (r : Access) : State :=
  match wayFor s h line with
  | (s, none) => waitRoom s h r
  | (s, some w) =>
    let s := modLine (withLine s h cid line) h cid line fun l =>
      { l with way := w, filling := true, transient := r.cache == 2, waiting := r :: l.waiting }
    post (if r.cache = 2 then countAt s cid line else memRead s cid line) (.memoryReplyAtHome h cid line)

/-- A load whose bytes are taken now and come later. -/
def readsEarly (s : State) (r : Access) : State :=
  match r.agent with
  | .load slot => readEarly s slot r.tx
  | _ => s

/-- An access whose line is not in the L2 (R30, R38, R39): an uncached read of the CXL tier waits for its expander (R386).
(DEDUCED, log entry 31) -/
def serveAbsent (s : State) (h cid line : Nat) (r : Access) : State :=
  match r.op with
  | .flush => answerWrite s h (newLine cid line 0) r
  | .read n =>
    match r.agent with
    | .fill _ _ _ => fillLine s h cid line r
    | .tow _ _ => fillLine s h cid line r
    | .engine k j _ =>
      -- the job makes the read itself, but for one that an expander answers
      if r.cache = 2 then
        if (channelOf line).isSome then wakeJob s k j
        else countAt (post (meet s r.phys n) (.expanderRead h r (msBytes s cid r.phys n) (badBytes s r.phys n))) cid line
      else fillLine s h cid line r
    | _ =>
      if r.cache = 2 then
        let bs := msBytes s cid r.phys n
        let ill := badBytes s r.phys n
        let s := meet s r.phys n
        if (channelOf line).isSome then countAt (answerRead s (nodeSlice h) r bs ill) cid line
        else countAt (post (readsEarly s r) (.expanderRead h r bs ill)) cid line
      else fillLine s h cid line r
  | .write cells =>
    if r.cache = 2 then
      let s := withLine s h cid line
      match lineAt s h cid line with
      | some x => performWrite s h x r cells []
      | none => s
    else fillLine s h cid line r
  | _ => fillLine s h cid line r

/-- Whether a line awaits nothing more: no probe, no reply of memory, no half that it must have back. -/
def lineSettled (x : HomeLine) : Bool := x.acks == 0 && !x.memWait && !x.filling && !x.bi.any fun b => b.blocking

/-- R115: the host-done of an access, once it has been acknowledged and each half has answered. -/
def hostDoneDue (s : State) (h cid line : Nat) (who : Agent) (tx : Nat) : State :=
  match lineAt s h cid line with
  | some x =>
    if (x.bi.any fun b => b.done.map Prod.snd == some tx) || x.current.map Access.tx == some tx then s
    else post s (.hostDone ⟨nodeSlice h, who, tx⟩)
  | none => post s (.hostDone ⟨nodeSlice h, who, tx⟩)

/-- R39, R138: a tow that has become due is served like a read: a line that the L2 does not hold is filled for it first. -/
def sendDue (s : State) (h cid line hd cons cache : Nat) : State :=
  match lineAt s h cid line with
  | some x =>
    if x.data.isSome then sendTow s h cid line hd cons cache
    else if lineBusy x then waitFirst (tick s) h x (towAccess s cid line hd cons cache)
    else fillLine (tick s) h cid line (towAccess s cid line hd cons cache)
  | none => s

/-- R110: a write that awaits nothing more is complete: it is acknowledged, and its tows leave. -/
def finishWrite (s : State) (h cid line : Nat) : State :=
  match lineAt s h cid line with
  | none => s
  | some x =>
    match x.current with
    | none => s
    | some r =>
      if !lineSettled x || x.evicting then s
      else
        let s := answerWrite s h x r
        let s := modLine s h cid line fun l =>
          let l := match l.grant with
            | some (k, v) => setHalf l k v
            | none => l
          { l with current := none, grant := none, tows := [], dirtyHit := false, hp := false, bad := 0 }
        let s := if x.hp then hostDoneDue s h cid line r.agent r.tx else s
        x.tows.foldl (fun s t => sendDue s h cid line t.1 t.2.1 t.2.2) s

/-- R28: a line that was filled for an access to an uncached page leaves the L2 once nothing waits for it. -/
def leaveUncached (s : State) (h cid line : Nat) : State :=
  match lineAt s h cid line with
  | some x => if x.transient && x.data.isSome && mayLeave x && x.hh0 == 0 && x.hh1 == 0 then dropLine s h x else s
  | none => s

/-- R119: a host request waits while a back-invalidation of its half is outstanding. -/
def hostWaits (x : HomeLine) (r : Access) : Bool :=
  match r.op with
  | .host k _ => x.bi.any fun b => b.half == k
  | _ => false

/-- Whether an access of a line waits for room at its slice: what comes for the line later stays behind it (R39). -/
def roomFirst (s : State) (h cid line : Nat) : Bool := (slice s h).noRoom.any fun q => q.cid == cid && q.phys / 128 == line

/-- R39: an access reaches its home: it waits behind what the line waits for, or is served. -/
def atHome (s : State) (h : Nat) (r : Access) : State :=
  let line := match r.op with
    | .host _ _ => r.addr / 128
    | _ => r.phys / 128
  match lineAt s h r.cid line with
  | some x =>
    if keptOut x r || !x.waiting.isEmpty || hostWaits x r then modLine s h r.cid line fun l => { l with waiting := l.waiting ++ [r] }
    else if roomFirst s h r.cid line then waitRoom s h r
    else leaveUncached (finishWrite (serveOne (cachedBy s h x r) h x r) h r.cid line) h r.cid line
  | none =>
    if roomFirst s h r.cid line then waitRoom s h r
    else serveAbsent s h r.cid line r
where
  /-- R28: an access of a cached page keeps the line. -/
  cachedBy (s : State) (h : Nat) (x : HomeLine) (r : Access) : State :=
    if x.transient && r.cache != 2 then modLine s h x.cid x.line fun l => { l with transient := false } else s
  /-- One access served by a line that is present and idle, reductions included. -/
  serveOne (s : State) (h : Nat) (x : HomeLine) (r : Access) : State :=
    match r.op with
    | .reduce sf df rm sc elems =>
      let own := [0, 1].filter fun k => halfState x k == 2 && elems.any fun e => e.off % 128 / 64 == k
      if x.data.isNone then serveAbsent s h x.cid x.line r
      else if own.isEmpty then
        let n := fmtSize df 0
        let ill := fun (e : RedElem) => poisoned s e.off n
        let old := fun (d : List Byte) (e : RedElem) => (d.drop (e.off % 128)).take n
        -- each element reads what the elements before it have written
        let add := fun (acc : List Byte × List (Nat × Byte)) (e : RedElem) =>
          let cs := reduceCells sf df rm sc e.off (old acc.1 e) e.src (ill e)
          (mergeCells acc.1 cs, acc.2 ++ cs)
        let cells := (elems.foldl add (x.data.getD [], [])).2
        let bad := elems.any ill
        -- an element that fills its granule is read, and not merged into it (R389, R390)
        let s := if homeGranule (r.cache == 2) x.line ≤ n then elems.foldl (fun s e => meet s e.off n) s else s
        let s := performWrite (useWay s h x) h x r cells (cells.map Prod.snd)
        if bad then modLine s h x.cid x.line fun l => { l with bad := BitVec.allOnes 32 } else s
      else backInvalidate s h x r own true
    | _ => if x.data.isSome then serveLine s h x r else serveAbsent s h x.cid x.line r

/-- R138: a tow that is due leaves at the first moment at which R110 lets the home serve its line, before what waits
there; it is served like a read, so a line that has left the L2 is filled for it (R39). -/
def towWhenIdle (s : State) (h cid line hd cons cache : Nat) : State :=
  let r := towAccess s cid line hd cons cache
  match lineAt s h cid line with
  | some x => if lineBusy x then waitFirst (tick s) h x r else atHome (tick s) h r
  | none => atHome (tick s) h r

/-- The waiting accesses of a line served in arrival order for as long as it stays idle. -/
def serveWaiting (s : State) (h cid line : Nat) : State :=
  match lineAt s h cid line with
  | none => s
  | some x =>
    let rs := x.waiting
    let s := modLine s h cid line fun l => { l with waiting := [] }
    rs.foldl (fun s r => atHome s h r) s

/-- Requests that waited for room are served again, in order. -/
def retryNoRoom (s : State) (h : Nat) : State :=
  let rs := (slice s h).noRoom
  let s := modSlice s h fun y => { y with noRoom := [] }
  rs.foldl (fun s r => atHome s h r) s

/-- What a line does once something it awaited has come: an eviction ends, a write completes and is
acknowledged, its tows leave, and what waited is served. -/
def settleLine (s : State) (h cid line : Nat) : State :=
  match lineAt s h cid line with
  | none => s
  | some x =>
    if !lineSettled x then s
    else
      let s := modSlice s h fun y => { y with holders := y.holders.filter fun o =>
        !(o.recalling && o.cid == cid && o.line == line) }
      if x.evicting then
        let s := dropLine s h x
        retryNoRoom (x.waiting.foldl (fun s r => atHome s h r) s) h
      else
        let s := finishWrite s h cid line
        let s := match lineAt s h cid line with
          | some y =>
            if lineBusy y then s
            else if y.data.isNone && y.towing == 0 && y.bi.isEmpty then
              y.waiting.foldl (fun s r => atHome s h r) (delLine s h cid line)
            else leaveUncached (serveWaiting s h cid line) h cid line
          | none => s
        retryNoRoom (vacate s h (lineSet line)) h

end Sys2Proof.Machine
end

