-- ==== Sys2Proof/Machine/Port.lean ====
section
/-! DEFINITION. The cluster port and the L1 data caches: translation of accesses (spec/26_translation.md
R370 to R374), parking on a page fault (R208, R209, R356), misses and fills of the L1 (R37, R51), and the
delivery of load data (R99, R182, R208, R391). -/

namespace Sys2Proof.Machine

/-! ### Delivery of load data -/

/-- The pieces of a load have all been answered. -/
def allHere (o : Outst) : Bool := o.pieces.all fun p => p.reply.isSome

/-- The answer that spoils a load, if any: a refusal before poison. -/
def badPiece (o : Outst) : Option Reply :=
  let rs := o.pieces.filterMap Piece.reply
  (rs.find? fun r => match r with
    | .refused _ _ => true
    | _ => false).orElse fun _ => rs.find? fun r => match r with
      | .poison _ _ => true
      | _ => false

/-- The bytes of an answer. -/
def replyBytes : Reply → List Byte
  | .data bs => bs
  | .poison bs _ => bs
  | .refused _ _ => []

/-- A loaded value extended to 64 bits (R207). -/
def extend (sgn : Bool) (size : Nat) (bs : List Byte) : Word :=
  if sgn then sextN (8 * size) (leNat bs) else word (leNat bs)

/-- The queues of a level (R86). -/
def queuesOf (t : Thread) : Level → Queues
  | .u => t.qu
  | .s => t.qs
  | .m => t.qm

/-- A thread with the queues of a level replaced. -/
def setQueues (t : Thread) (l : Level) (q : Queues) : Thread :=
  match l with
  | .u => { t with qu := q }
  | .s => { t with qs := q }
  | .m => { t with qm := q }

/-- REMOTE-REFUSED's value (R26). -/
def refusedVal (rk who : Nat) : Word := word (rk * 256 + who)

/-- The stream's element at a place answered (R185). -/
def setElem (t : Thread) (q tx : Nat) (e : Elem) : Thread :=
  match find t.streams q with
  | some st => { t with streams := put t.streams q { st with elems := st.elems.map fun x => if x == .coming tx then e else x } }
  | none => t

/-- A load's destination takes its value: a register, the place in `ld`, or nothing (R83, R207). -/
def putDest (t : Thread) (o : Outst) (bs : List Byte) : Thread :=
  match o.dest with
  | .x r size sgn => wrReg t r (extend sgn size bs)
  | .ld l size sgn =>
    let q := queuesOf t l
    setQueues t l { q with ld := q.ld.map fun e => if e.tx == o.tx then { e with val := some (extend sgn size bs) } else e }
  | .stream q => setElem t q o.tx (.here (word (leNat bs)))
  | .blk => { t with blk := t.blk.map fun e => if e.tx == o.tx then { e with val := some (word (leNat bs)) } else e }
  | .v _ => t
  | .discard => t

/-- Whether the word at an offset is among the poisoned bytes of an answer. -/
def laneBad (bad : List Nat) (off : Nat) : Bool := bad.any fun i => decide (off ≤ i) && decide (i < off + 4)

/-- The lanes of a vector load written to the lane slices (R246): each lane's four bytes. -/
def laneCells (core base : Nat) (o : Outst) : List (Nat × Byte) :=
  match o.dest with
  | .v n => o.pieces.flatMap fun p =>
      match p.reply with
      | some (.data bs) => p.lanes.flatMap fun l =>
          cellsAt (lanePlace core (l.1 * 2048 + (base + n) * 4)) ((bs.drop l.2.1).take 4)
      | some (.poison bs bad) => p.lanes.flatMap fun l =>
          cellsAt (lanePlace core (l.1 * 2048 + (base + n) * 4))
            (if laneBad bad l.2.1 then List.replicate 4 0 else (bs.drop l.2.1).take 4)
      | _ => []
  | _ => []

/-- A queue load that enters no value loses its place in `ld` (R212); a block that misses a word is read anew. -/
def dropLd (t : Thread) (o : Outst) : Thread :=
  match o.dest with
  | .blk => { t with blk := [] }
  | .ld l _ _ =>
    let q := queuesOf t l
    setQueues t l { q with ld := q.ld.filter fun e => e.tx != o.tx }
  | _ => t

/-- The lowest effective offset among poisoned lanes (R391). -/
def poisonLane (o : Outst) : Option Word :=
  let es := o.pieces.flatMap fun p => match p.reply with
    | some (.poison _ bad) => (p.lanes.filter fun l => laneBad bad l.2.1).map fun l => (l.1, l.2.2)
    | _ => []
  (es.foldl (fun (m : Option (Nat × Word)) e => match m with
    | none => some e
    | some v => if e.1 < v.1 then some e else some v) none).map Prod.snd

/-- Whether a load is a vector load. -/
def isVec (o : Outst) : Bool :=
  match o.dest with
  | .v _ => true
  | _ => false

/-- One finished load taken from a thread: its effect and the trap it leaves pending. -/
def deliverOne (s : State) (slot : Nat) (t : Thread) (o : Outst) : State :=
  let t := { t with outs := t.outs.filter fun x => x.tx != o.tx }
  let stream := match o.dest with
    | .stream q => some q
    | _ => none
  match badPiece o with
  | some (.refused rk who) =>
    match stream with
    | some q => setThr s slot (setElem t q o.tx (.refused rk who))
    | none => pendTrap (setThr s slot (dropLd t o)) slot 0x16 (refusedVal rk who) o.pc o.dest
  | some (.poison _ _) =>
    match stream with
    | some q => setThr s slot (setElem t q o.tx (.poisoned (word o.va)))
    | none =>
      let s := writeWords s (laneCells (coreOf slot) t.lbase o)
      let s := setThr s slot (putDest t o [])
      match poisonLane o, isVec o with
      | some e, _ => pendTrap s slot 0x23 e o.pc
      | none, true => s                -- no active lane has read a poisoned word
      | none, false => pendTrap s slot 0x23 (word o.va) o.pc
  | _ =>
    let bs := match o.pieces with
      | p :: _ => (p.reply.map replyBytes).getD []
      | [] => []
    let s := writeWords s (laneCells (coreOf slot) t.lbase o)
    setThr s slot (putDest t o bs)

/-- An answer reaches one piece of a thread's loads. -/
def answerPiece (t : Thread) (tx : Nat) (rp : Reply) : Thread :=
  { t with outs := t.outs.map fun o => { o with pieces := o.pieces.map fun p =>
      if p.acc.tx == tx then { p with reply := some rp } else p } }

/-! ### The L1 (R37) -/

/-- The L1 line of a core. -/
def l1Find (c : Core) (cid line : Nat) : Option L1Line := c.l1.find? fun l => l.cid == cid && l.line == line

/-- A tow-marked L1 line's fate reported to its home (R142). -/
def reportL1 (s : State) (c : Nat) (l : L1Line) (used : Bool) : State :=
  match l.tow with
  | some (hd, h) => post s (.towUseReport ⟨nodeCore c, h⟩ hd used)
  | none => s

/-- An L1 line dropped, its tow mark reported wasted (R142). -/
def l1Drop (s : State) (c cid line : Nat) : State :=
  match l1Find (core s c) cid line with
  | none => s
  | some l => reportL1 (modCore s c fun x => { x with l1 := x.l1.filter fun y => !(y.cid == cid && y.line == line) }) c l false

/-- A line installed: the least recently used way of a full set of 4 is replaced (R37). -/
def l1Install (s : State) (c : Nat) (l : L1Line) : State :=
  let s := if (l1Find (core s c) l.cid l.line).isSome then
      modCore s c fun x => { x with l1 := x.l1.filter fun y => !(y.cid == l.cid && y.line == l.line) }
    else s
  let set := (core s c).l1.filter fun y => y.line % 128 == l.line % 128
  let s := if set.length < 4 - retiredWays s 4 c then s
    else match set.getLast? with
      | some v => l1Drop s c v.cid v.line
      | none => s
  modCore s c fun x => { x with l1 := l :: x.l1 }

/-- The words of a line's copy that are poisoned after some cells are written into it: those written whole are not (R389). -/
def stillBad (cells : List (Nat × Byte)) (l : L1Line) : List Nat :=
  l.bad.filter fun w => decide ((cells.filter fun k => k.1 / 128 == l.line && k.1 % 128 / 4 == w).length < 4)

/-- R89, R106: bytes written into a core's copy of a line, if it has one. A store is no use of the line for the order of R37.
(DESIGN CHOICE, log entry 51) -/
def l1Update (s : State) (c cid : Nat) (cells : List (Nat × Byte)) : State :=
  modCore s c fun x => { x with l1 := x.l1.map fun l =>
    if l.cid == cid then
      { l with data := (cells.filter fun k => k.1 / 128 == l.line).foldl (fun d k => d.set (k.1 % 128) k.2) l.data,
               bad := stillBad cells l }
    else l }

/-- R89, R51: a core's awaited entry for a line is marked probed; a load that joined it, and stands behind an earlier
die-local one, will read its line again (R99). -/
def markProbed (s : State) (c cid line : Nat) : State :=
  let hit := fun (m : Mshr) => m.cid == cid && m.line == line
  let js := ((core s c).mshr.filter hit).flatMap Mshr.joined
  let s := modCore s c fun x => { x with mshr := x.mshr.map fun m => if hit m then { m with probed := true } else m }
  js.foldl (fun s j => readEarly s j.slot j.tx) s

/-! ### Routing a translated access -/

/-- Whether a load's pieces leave it die-local as far as the core knows (R97, R99). -/
def withNear (o : Outst) (f : Piece → Piece) : Outst :=
  let ps := o.pieces.map f
  { o with pieces := ps, dieLocal := ps.any Piece.near }

/-- R98: an ended thread's atomic holds its core's stores no more. -/
def atomGone (s : State) (c tx : Nat) : State :=
  if (core s c).goneAtoms.contains tx then
    post (modCore s c fun x => { x with goneAtoms := x.goneAtoms.filter fun n => n != tx }) (.storeDrain c)
  else s

/-- Note that a load's or store's homing is known (R98, R99), also to the loads of its core that took bytes of the same page
from the store buffer. -/
def noteHoming (s : State) (r : Access) : State :=
  let loc := r.home == some (dieOf r.core)
  let same := fun (p : Piece) => p.fixed && p.acc.kind == .glob && p.acc.addr / 2 ^ 16 == r.addr / 2 ^ 16
  let learn := fun (o : Outst) => if o.pieces.any same then withNear o fun p => if same p then { p with near := loc } else p else o
  let thread := fun (q : Nat × Thread) => if coreOf q.1 == r.core then (q.1, { q.2 with outs := q.2.outs.map learn }) else q
  let s := { s with threads := s.threads.map thread }
  let piece := fun (p : Piece) => if p.acc.tx == r.tx then { p with acc := r, near := loc } else p
  match r.agent with
  | .load slot =>
    let own := fun (o : Outst) => if o.pieces.any (fun p => p.acc.tx == r.tx) then withNear o piece else o
    let s := if loc || !(core s r.core).goneAtoms.contains r.tx then s else atomGone s r.core r.tx
    modThr s slot fun t => { t with outs := t.outs.map own }
  | .journal c es =>
    let entry := fun (j : Nat × JEntry) =>
      if es.contains j.1 then (j.1, { j.2 with dieLocal := some loc, line := some (r.phys / 128) }) else j
    modCore s c fun x => { x with journal := x.journal.map entry }
  | _ => s

/-- Addresses of an access moved to its physical page. -/
def toPhys (a : Nat) (pa : Nat) (r : Access) : Access :=
  let f := fun (x : Nat) => pa + (x - a)
  match r.op with
  | .write cells => { r with op := .write (cells.map fun c => (f c.1, c.2)), phys := f r.addr, xlated := true }
  | .reduce sf df rm sc es => { r with op := .reduce sf df rm sc (es.map fun e => { e with off := f e.off }), phys := f r.addr, xlated := true }
  | _ => { r with phys := f r.addr, xlated := true }

/-- Whether an access of a slot's thread waits at its cluster's port for a walk or a miss-status entry (R37, R372). -/
def awaitsEntry (s : State) (slot : Nat) : Bool :=
  (cluster s (clusterOf (coreOf slot))).queued.any fun q => q.agent == .load slot

/-- An access waits at the port in arrival order until a walk or a miss-status entry is free, and its thread leaves the
rotation for as long (R37, R183, R372). -/
def queueAtPort (s : State) (r : Access) : State :=
  let s := modCluster s (clusterOf r.core) fun k => { k with queued := k.queued ++ [r] }
  match r.agent with
  | .load slot => tick (modThr s slot fun t =>
      if t.status = .ready || t.status = .wait .retry then { t with status := .wait .entry, seqno := s.nextTx } else t)
  | _ => s

/-- The threads of a cluster whose access waits at the port no more are READY again. -/
def endEntryWaits (s : State) (k : Nat) : State :=
  let got := fun (p : Nat × Thread) => p.2.status == .wait .entry && clusterOf (coreOf p.1) == k && !awaitsEntry s p.1
  { s with threads := s.threads.map fun p => if got p then (p.1, { p.2 with status := .ready }) else p }

/-- A cached load or prefetch at the core's L1: a hit, a joined entry, a new entry, or none free (R37, R51). -/
def l1Read (s : State) (r : Access) (n : Nat) : State :=
  let c := core s r.core
  let line := r.phys / 128
  let join : List Joined := match r.agent with
    | .load slot => [{ slot := slot, tx := r.tx, off := r.phys % 128, size := n, addr := r.addr }]
    | _ => []
  match l1Find c r.cid line with
  | some l =>
    match r.agent with
    | .load slot =>
      let s := reportL1 s r.core l true
      let s := modCore s r.core fun x => { x with l1 := { l with tow := none } :: x.l1.erase l }
      let ill := (List.range n).filter fun i => l.bad.contains ((r.phys % 128 + i) / 4)
      sendData s (nodeCore r.core) slot r ((l.data.drop (r.phys % 128)).take n) ill
    | _ => s
  | none =>
    if c.mshr.any fun m => m.cid == r.cid && m.line == line && !m.probed then
      modCore s r.core fun x => { x with mshr := x.mshr.map fun m =>
        if m.cid == r.cid && m.line == line && !m.probed then { m with joined := m.joined ++ join } else m }
    else if c.mshr.length < 32 then
      let s := modCore s r.core fun x => { x with mshr := x.mshr ++ [{ line := line, cid := r.cid, probed := false, joined := join }] }
      post s (.requestAtHome (homeSlice r.home r.phys) r)
    else match r.agent with
      | .load _ => queueAtPort s r
      | _ => s

/-- The towline whose range contains a virtual address, loaded in a cluster's port (R133). -/
def portHandle (s : State) (k va : Nat) : Option Nat :=
  s.dies.findSome? fun d => d.2.tows.findSome? fun t =>
    if t.2.st != .idle && t.2.clusters.contains k && t.2.ranges.any (fun g => decide (g.1 ≤ va) && decide (va < g.1 + g.2))
    then some (d.1 * 64 + t.1) else none

/-- R133: a translated access takes the handle of the towline that its address falls in; requests of
engines, of the host and of other devices take none, nor do the reads that are not fills. -/
def tagged (s : State) (r : Access) : Access :=
  let hd := portHandle s (clusterOf r.core) r.addr
  match r.agent, r.op with
  | .journal _ _, .write _ => { r with handle := hd }
  | .load _, .atomic _ _ _ _ => { r with handle := hd }
  | .load _, .read _ => if r.cache = 0 then { r with handle := hd } else r
  | .prefetch _, .read n => if r.cache = 0 ∧ n = 128 then { r with handle := hd } else r
  | .fill _ _ _, _ => { r with handle := hd }
  | .writeBack _ _ _ _, _ => { r with handle := hd }
  | _, _ => r

/-- The right that an access needs of its final translation (R208, R209, R216, R66). -/
def allowed (e : TlbEntry) (op : MemOp) : Bool :=
  match op with
  | .read _ => e.r
  | .write _ => e.w
  | .atomic _ _ _ _ => e.r && e.w
  | .reduce _ _ _ _ _ => e.r && e.w
  | .flush => e.r
  | .host _ _ => true

/-- R55: whether an address lies in the hotness area, which only the controllers and M mode write. -/
def inHotArea (s : State) (pa : Nat) : Bool := (hotAreas s).any fun a => decide (a.1 ≤ pa) && decide (pa < a.1 + a.2)

/-- Whether an address of a partition lies in its context area: so many records of 32 KiB (R354, R359). -/
def inCtxArea (s : State) (cid va : Nat) : Bool :=
  let w := ((part s cid).map Part.ctxa).getD 0
  decide (fld w 51 0 ≤ va) && decide (va < fld w 51 0 + fld w 63 56 * 1024 * 32768)

/-- Whether a final translation lets an access go on: it has the right, and outside M it writes no hotness area and reaches no
context area (R55, R359, R368). -/
def permits (s : State) (e : TlbEntry) (r : Access) : Bool :=
  allowed e r.op && (r.m || ((!opWrites r.op || !inHotArea s (e.pa + r.addr % e.size)) && !inCtxArea s r.cid r.addr))

/-- An access with its final translation (R31, R368). -/
def translated (e : TlbEntry) (r : Access) : Access :=
  { toPhys r.addr (e.pa + r.addr % e.size) r with
    home := e.home, cache := e.cache, common := e.common, tracked := e.tracked, cid := if e.common then 0 else r.cid }

/-- The 64 KiB virtual page of an access. -/
def pageOf (r : Access) : Nat := r.addr / 2 ^ 16

/-- An access that joins its page's walk at the port, begins it, or waits for one of the 16 to end (R372). -/
def walkFor (s : State) (r : Access) : State :=
  let k := clusterOf r.core
  let its := fun (w : Walk) => w.cid == r.cid && w.page == pageOf r
  let cl := cluster s k
  if cl.walks.any its then
    modCluster s k fun x => { x with walks := x.walks.map fun w => if its w then { w with waiting := w.waiting ++ [r] } else w }
  else if cl.walks.length < 16 then
    post (modCluster s k fun x => { x with walks := x.walks ++ [{ cid := r.cid, page := pageOf r, waiting := [r], stale := false }] })
      (.walkComplete k r.cid (pageOf r))
  else queueAtPort s r

/-- An access as it came to its port, without the translation that it has had. -/
def untranslated (s : State) (r : Access) : Access :=
  { r with xlated := false, phys := 0, home := none, cache := 0, common := false, tracked := false, cid := cidOf s r.core }

/-- A load's access made again: its location is read anew (R99), through the translation that stands now (R375). -/
def again (s : State) (r : Access) : State :=
  match r.kind, r.op with
  | .glob, .read n =>
    let q := untranslated s r
    let k := clusterOf r.core
    match tlbFind (cluster s k).tlb q.cid q.addr with
    | none => walkFor s q
    | some e =>
      if permits s e q then
        let q := tagged s (translated e q)
        let s := noteHoming s q
        if q.cache = 0 then l1Read s q n else post s (.requestAtHome (homeSlice q.home q.phys) q)
      else refuse s (nodeCore r.core) q 2 k 6
  | .chip, _ => post s (.chipScratchpadAccess r)
  | .remc, _ => post s (.remoteAccessArrival r)
  | _, _ => s

/-- R99, R100: the parts of a load that were read too early are read again. (DEDUCED, log entry 24) -/
def readAgain (s : State) (slot : Nat) (o : Outst) : State :=
  let clear := fun (p : Piece) => if p.early then { p with reply := none, early := false } else p
  let f := fun (x : Outst) => if x.tx == o.tx then { x with pieces := x.pieces.map clear } else x
  (o.pieces.filter Piece.early).foldl (fun s p => again s p.acc) (modThr s slot fun t => { t with outs := t.outs.map f })

/-- R99: one outstanding load considered, after the earlier ones: it delivers once all of it is here, a die-local one
only when no earlier die-local one is still awaited. -/
def deliverNext (slot : Nat) (p : State × Bool) (o : Outst) : State × Bool :=
  if !allHere o || (o.dieLocal && p.2) then (p.1, p.2 || o.dieLocal)
  else if o.pieces.any Piece.early then (readAgain p.1 slot o, p.2 || o.dieLocal)
  else match thr p.1 slot with
    | some t => (deliverOne p.1 slot t o, p.2)
    | none => p

/-- The loads of a thread that may deliver do, in order. -/
def deliverAll (s : State) (slot : Nat) : State :=
  match thr s slot with
  | none => s
  | some t => (t.outs.foldl (deliverNext slot) (s, false)).1

/-- Whether the data of a thread's access is on its way from the L1 or the home. -/
def arriving (s : State) (slot tx : Nat) : Bool :=
  s.due.any fun e => match e with
    | .loadDataArrives _ _ _ ⟨.refused _ _, _⟩ => false
    | .loadDataArrives ⟨_, k⟩ x _ _ => k == slot && x == tx
    | _ => false

/-- R99: a die-local load that has read a line but not delivered performs again when a probe for the line arrives, or
when a store of its own core to the line drains, for which no probe comes (R100); that of a saved thread once it is to be
delivered. (DEDUCED, log entry 24) -/
def rereadLine (s : State) (c cid line : Nat) : State :=
  let hit := fun (slot : Nat) (o : Outst) (p : Piece) =>
    p.near && !o.atom && !p.fixed && p.acc.kind == .glob && p.acc.xlated && p.acc.cache == 0 && p.acc.cid == cid &&
      p.acc.phys / 128 == line && (p.reply.isSome || arriving s slot p.acc.tx)
  let read := fun (k : Nat) (o : Outst) (p : Piece) => p.reply.isSome && hit k o p
  let late := fun (k : Nat) (o : Outst) =>
    { o with pieces := o.pieces.map fun p => if read k o p then { p with early := true } else p }
  let away := fun (x : Saved) => x.core == c && x.thread.outs.any fun o => o.pieces.any (read x.slot o)
  let lateIn := fun (x : Saved) => { x with thread := { x.thread with outs := x.thread.outs.map (late x.slot) } }
  let s := if s.saved.any away then { s with saved := s.saved.map fun x => if away x then lateIn x else x } else s
  let mine := s.threads.filter fun p => coreOf p.1 == c
  let redo := mine.flatMap fun p => p.2.outs.flatMap fun o => (o.pieces.filter (hit p.1 o)).map fun q => (p.1, q.acc)
  let unread := fun (slot : Nat) (o : Outst) (p : Piece) => if hit slot o p then { p with reply := none, early := false } else p
  let reset := fun (slot : Nat) (o : Outst) => { o with pieces := o.pieces.map (unread slot o) }
  let s := forEach (redo.map Prod.fst).eraseDups (fun s k => modThr s k fun t => { t with outs := t.outs.map (reset k) }) s
  let gone := fun (e : Event) => match e with
    | .loadDataArrives ⟨_, k⟩ x _ _ => redo.any fun q => q.1 == k && q.2.tx == x
    | _ => false
  forEach redo (fun s q => again s q.2) { s with due := s.due.filter fun e => !gone e }

/-- A translated access sent on its way. -/
def route (s : State) (r : Access) : State :=
  let r := tagged s r
  let s := noteHoming s r
  let h := homeSlice r.home r.phys
  match r.agent, r.op with
  | .load _, .read n => if r.cache = 0 then l1Read s r n else post s (.requestAtHome h r)
  | .prefetch _, .read n => if n = 128 then (if r.cache = 0 then l1Read s r n else s) else post s (.requestAtHome h r)
  | .prefetch c, .flush => l1Drop s c r.cid (r.phys / 128)
  | .journal c _, .write cells =>
    let s := rereadLine (markProbed (l1Update s c r.cid cells) c r.cid (r.phys / 128)) c r.cid (r.phys / 128)
    post s (.requestAtHome h r)
  | .fetch _, _ => s                  -- its thread fetches again (R23)
  | .engine k id _, .read _ => wakeJob s k id
  | .flush c _, _ => post (l1Drop s c r.cid (r.phys / 128)) (.requestAtHome h r)
  | .writeBack _ _ _ _, _ => post s (.writeBackMessage h r)
  | _, _ => post s (.requestAtHome h r)

/-- The job that an event makes a step of. -/
def jobOf : Event → Option (Nat × Nat)
  | .mtCtx k j => some (k, j)
  | .mtTern k j => some (k, j)
  | .mtBooth k j => some (k, j)
  | .mtZero k j => some (k, j)
  | .mtDrain k j => some (k, j)
  | .ringStep k j => some (k, j)
  | .cpCopy k j => some (k, j)
  | .cpFill k j => some (k, j)
  | .cpGath k j => some (k, j)
  | .cpScat k j => some (k, j)
  | .cpRed k j => some (k, j)
  | .cpAr k j => some (k, j)
  | .cpBcast k j => some (k, j)
  | .rowDrain k j _ => some (k, j)
  | _ => none

/-- The touches of a storage line that wait for a fill that ends without data: each is taken from its list and treated. -/
def endTouches (s : State) (line : Nat) (f : State → Toucher → State) : State :=
  let k := clusterOfLine line
  let ts := (cluster s k).touches.filter fun t => t.line == line
  ts.foldl (fun s t => f s t.who) (modCluster s k fun x => { x with touches := x.touches.filter fun t => t.line != line })

/-- A basin line awaits no fill any more. -/
def endFill (s : State) (c : Nat) (clus : Bool) (sline : Nat) : State :=
  match find (core s c).tags (tagKey clus sline) with
  | some t => setTag s c clus sline { t with fp := false, probed := 0 }
  | none => s

/-- What a denied access does: refusal of the load, store, atomic or write-back; a prefetch does nothing; a
denied basin fill refuses the touches that wait for it. (DESIGN CHOICE, log entry 14) -/
def denied (s : State) (r : Access) : State :=
  let src := nodeCore r.core
  let who := clusterOf r.core
  match r.agent with
  | .prefetch _ => s
  | .fill c clus sline =>
    endTouches (endFill s c clus sline) (storageLine c clus sline) fun s t => match t with
      | .slot n => match thr s n with
        | some x => pendTrap (setThr s n { x with status := .wait .retry }) n 0x16 (refusedVal 2 who) x.pc
        | none => s
      | .event (.remoteAccessArrival q) => refuse s src q 2 who 6
      | .event e => match jobOf e with
        | some (k, j) => post s (.copyWriteAck ⟨src, k⟩ j noUnit false false ⟨false, []⟩)
        | none => s
  | _ => refuse s src r 2 who 6

/-- Whether an engine makes an access: no core's faulted store holds it (R209). -/
def byEngine (r : Access) : Bool :=
  match r.agent with
  | .engine _ _ _ => true
  | _ => false

/-- Whether an access is a load or atomic of a thread. -/
def byLoad (r : Access) : Bool :=
  match r.agent with
  | .load _ => true
  | _ => false

/-- Whether an access is a drained store. -/
def byStore (r : Access) : Bool :=
  match r.agent with
  | .journal _ _ => true
  | _ => false

/-- Whether one job makes both accesses. -/
def sameJob (r q : Access) : Bool :=
  match r.agent, q.agent with
  | .engine k i _, .engine k' i' _ => k == k' && i == i'
  | _, _ => false

/-- Whether an access q of the same core, or of the same job, and of the same CID and page stands at the port before r, which
must not pass it (R80, R111, R120, R209). -/
def samePage (r q : Access) : Bool :=
  (sameJob r q || (!byEngine r && !byEngine q && q.core == r.core)) && q.kind == r.kind && q.cid == r.cid && pageOf q == pageOf r

/-- Whether an access is an instruction fetch, which needs the right to execute, tested as it is fetched (R23, R368). -/
def byFetch (r : Access) : Bool :=
  match r.agent with
  | .fetch _ => true
  | _ => false

/-- Whether an access of a property waits at a cluster's port for its translation, or behind what does. -/
def portHas (s : State) (k : Nat) (p : Access → Bool) : Bool :=
  let x := cluster s k
  x.queued.any p || x.held.any p || x.walks.any fun w => w.waiting.any p

/-- Whether r must stay behind an access q that waits for its translation: one of its own core and page, or, for a load, a
store of its core that has drained (R80, R89, R90, R111). -/
def staysBehind (r q : Access) : Bool := samePage r q || (byLoad r && byStore q && q.core == r.core)

/-- An access at the cluster port: held behind a faulted store of its core and page (R209), kept behind what must be
translated before it, translated, joined to a walk, or the start of one (R370, R372). -/
def atPort (s : State) (r : Access) : State :=
  let k := clusterOf r.core
  let cl := cluster s k
  let join := fun (p : Walk → Bool) =>
    let f := fun (w : Walk) => if p w then { w with waiting := w.waiting ++ [r] } else w
    modCluster s k fun x => { x with walks := x.walks.map f }
  if cl.faulted.any (samePage r) || cl.held.any (samePage r) then modCluster s k fun x => { x with held := x.held ++ [r] }
  else if cl.queued.any (staysBehind r) then queueAtPort s r
  else match (cl.walks.filter fun w => w.waiting.any (staysBehind r)).getLast? with
    | some w => join fun v => v == w
    | none => match tlbFind cl.tlb r.cid r.addr with
      | some e =>
        let s := modCluster s k fun x => { x with tlb := tlbUse x.tlb e }
        if byFetch r || permits s e r then route s (translated e r) else denied s r
      | none => walkFor s r

/-- Accesses that waited at the port for a walk or a miss-status entry are tried again. -/
def retryQueued (s : State) (k : Nat) : State :=
  let rs := (cluster s k).queued
  let s := modCluster s k fun x => { x with queued := [] }
  endEntryWaits (rs.foldl (fun s r => if r.xlated then
      match r.op with
      | .read n => l1Read s r n
      | _ => s
    else atPort s r) s) k

/-! ### Page faults (R356, R373) -/

/-- The access code of a fault record (R356). -/
def accCode (r : Access) : Nat :=
  match r.agent, r.op with
  | .fill _ _ _, _ => 4
  | .writeBack _ _ _ _, _ => 4
  | .journal _ _, _ => 1
  | .prefetch _, _ => 3
  | .fetch _, _ => 3
  | .engine _ _ _, .read _ => 5
  | .engine _ _ _, _ => 6
  | .scheduler, _ => 1
  | _, .atomic _ _ _ _ => 2
  | _, _ => 0

/-- The records of a fault: the partition's, the hypervisor's, or both (R373). -/
def faultBoth (s : State) (cid : Nat) (f : WalkFault) (acc va : Nat) (pr : FaultRec) : State :=
  let hyp := fun (w1 ia : Nat) => ({ hyper := true
                                     told := false
                                     w0 := word (w1 * 2 ^ 63 + acc * 2 ^ 60 + ia / 8 * 8)
                                     w1 := pr.w1
                                     w2 := word (fld pr.w2 63 48 * 2 ^ 48 + cid)
                                     w3 := word (va % 2 ^ 52) } : FaultRec)
  match f with
  | .stage1 => raiseFault s cid pr
  | .dataIa ia => raiseFault (raiseFault s cid pr) cid (hyp 0 ia)
  | .tableIa ia => raiseFault s cid (hyp 1 ia)

/-- The stage-2 IA of a fault, plus one; 0 for a stage-1 fault (R373). -/
def faultIa : WalkFault → Nat
  | .stage1 => 0
  | .dataIa ia => ia + 1
  | .tableIa ia => ia + 1

/-- A walk's fault for another address of the walk's 64 KiB page: its own data IA (R373). -/
def WalkFault.forVa (b : Nat) : WalkFault → WalkFault
  | .dataIa ia => .dataIa (ia / 2 ^ 16 * 2 ^ 16 + b % 2 ^ 16)
  | f => f

/-- An access with the IA of the stage-2 fault that it is parked on. -/
def onFault (f : WalkFault) (r : Access) : Access := { r with phys := faultIa f }

/-- A thread parks with an access (R175), keeping the wait that it goes back to; it waits for no basin fill meanwhile. -/
def parkThread (s : State) (slot : Nat) (f : WalkFault) (r : Access) : State :=
  let s := leaveTouch s (clusterOf (coreOf slot)) (.slot slot) none
  let stays := fun (t : Thread) => match t.status with
    | .wait (.touch _) => some Wait.retry
    | .wait w => some w
    | .parked => t.resume
    | .ready => none
  let park := fun (t : Thread) =>
    { t with status := .parked, resume := stays t, parked := t.parked ++ [onFault f r],
             seqno := if t.status = .parked then t.seqno else s.nextTx }
  post (tick (modThr s slot park)) (.slotGrant (coreOf slot))

/-- A saved thread is PARKED with an access that its wait awaits (R76, R175). -/
def parkSaved (s : State) (x : Saved) (f : WalkFault) (r : Access) : State :=
  let park := fun (t : Thread) => { t with
    status := .parked, resume := waitOf t, parked := t.parked ++ [onFault f r] }
  { s with saved := s.saved.map fun y => if y == x then { y with thread := park y.thread, wakeDue := false } else y }

/-- The tag of a wait that write-backs end (R65). -/
def waitTag : Wait → Option Nat
  | .basin _ _ _ tag => some tag
  | .release _ tag => some tag
  | _ => none

/-- Whether a thread's wait has a tag, or a release of its had it that it has left for a trap (R353). -/
def waitsFor (tag : Nat) (t : Thread) : Bool := (waitOf t).bind waitTag == some tag || t.relTags.contains tag

/-- The slot of a core whose thread's wait has a tag. -/
def waiterOf (s : State) (c tag : Nat) : Option Nat :=
  (s.threads.find? fun p => coreOf p.1 == c && waitsFor tag p.2).map Prod.fst

/-- The identifier of a slot's thread. -/
def swidOf (s : State) (slot : Nat) : Nat := ((thr s slot).map fun t => t.swid).getD 0

/-- R279: a job stops on a page fault, and a record names it; an access of a job that has stopped for good is not made. -/
def parkEngine (s : State) (k id u : Nat) (f : WalkFault) (r : Access) : State :=
  match jobAt s k id with
  | none => s
  | some j =>
    if j.ended then post s (.copyWriteAck ⟨nodeCore r.core, k⟩ id u false false ⟨false, []⟩)
    else
      let acc := accCode r
      let s := modJob s k id fun j => { j with st := .stopped, parked := j.parked ++ [onFault f r] }
      faultBoth s r.cid f acc r.addr (faultRec 3 acc r.addr 0 0 0 k (if jobUnit j = 0 then 0 else 1) 0 id)

/-- The record of an access that parked a thread (R356). -/
def parkedRec (s : State) (slot acc va : Nat) : FaultRec := faultRec 1 acc va (swidOf s slot) 0 slot 0 0 0 0

/-- A drained store is held at its port on a fault of an address: its entries say FAULTED, and its thread parks, if it is
still there (R209). -/
def parkStore (s : State) (f : WalkFault) (q r : Access) (c : Nat) (es : List Nat) : State :=
  let acc := accCode r
  -- it counts as die-local until its translation is known
  let hold := fun (j : JEntry) => { j with code := 1, dieLocal := if j.kind = .glob then none else j.dieLocal }
  let s := modCore s c fun x => { x with journal := x.journal.map fun j => if es.contains j.1 then (j.1, hold j.2) else j }
  let s := modCluster s (clusterOf c) fun x => { x with faulted := x.faulted ++ [{ onFault f q with va := r.addr }] }
  match es.head?.bind fun e => find (core s c).journal e with
  | some j =>
    let here := !j.gone && swidOf s j.slot == j.swid && (thr s j.slot).isSome
    let s := if here then parkThread s j.slot f r else s
    faultBoth s r.cid f acc r.addr (faultRec 2 acc r.addr j.swid (es.headD 0) j.slot 0 0 0 0)
  | none => s

/-- Whether an access is one of a thread's outstanding loads. -/
def outOf (t : Thread) (tx : Nat) : Bool := t.outs.any fun o => o.pieces.any fun p => p.acc.tx == tx

/-- A load's access whose translation is not present parks its thread, if that is still there (R175, R208); the access of
one that has ended is not made. -/
def parkLoad (s : State) (slot : Nat) (f : WalkFault) (acc : Nat) (q r : Access) : State :=
  if ((thr s slot).map fun t => outOf t q.tx).getD false then
    faultBoth (parkThread s slot f r) r.cid f acc r.addr (parkedRec s slot acc r.addr)
  else atomGone s (coreOf slot) q.tx

/-- R62: a touch waits for a fill whose translation is not present: the touching thread parks, also one whose access came
from another cluster, whose access is kept to be sent again; an engine's job stops. -/
def parkToucher (f : WalkFault) (r : Access) (s : State) : Toucher → State
  | .slot n => faultBoth (parkThread s n f r) r.cid f 4 r.addr (parkedRec s n 4 r.addr)
  | .event (.remoteAccessArrival q) => match q.agent with
    | .load n =>
      let s := modThr s n fun t => if outOf t q.tx then { t with stalled := t.stalled ++ [q] } else t
      parkLoad s n f 4 q r
    | .journal c es => parkStore s f q r c es
    | _ => s
  | .event e => match jobOf e with
    | some (k, j) => parkEngine s k j noUnit f r
    | none => s

/-- An access whose translation is not present: who made it parks, and a record says so (R62, R175, R209, R356).
(DESIGN CHOICE, log entry 14) -/
def parkAccess (s : State) (f : WalkFault) (r : Access) : State :=
  let acc := accCode r
  match r.agent with
  | .load slot => parkLoad s slot f acc r r
  | .fetch slot =>
    if (thr s slot).bind waitOf = some (.fetch r.tx) then
      faultBoth (parkThread s slot f r) r.cid f acc r.addr (parkedRec s slot acc r.addr)
    else s                            -- its thread has left it for a trap
  | .flush _ slot => faultBoth (parkThread s slot f r) r.cid f acc r.addr (parkedRec s slot acc r.addr)
  | .journal c es => parkStore s f r r c es
  | .fill c clus sline => endTouches (endFill s c clus sline) (storageLine c clus sline) (parkToucher f r)
  | .writeBack c _ _ _ =>
    let owner := ((core s c).wbs.find? fun w => w.tx == r.tx).bind WbFlight.owner
    match owner.bind (waiterOf s c), s.saved.find? fun x => x.core == c && owner.any fun tag => waitsFor tag x.thread with
    | some slot, _ => faultBoth (parkThread s slot f r) r.cid f acc r.addr (parkedRec s slot acc r.addr)
    | none, some x => faultBoth (parkSaved s x f r) r.cid f acc r.addr (faultRec 1 acc r.addr x.thread.swid 0 x.slot 0 0 0 0)
    | none, none => refuse s (nodeCore c) r 2 (clusterOf c) 6   -- no thread waits for it (R77)
  | .engine k id u => parkEngine s k id u f r
  | .scheduler =>
    -- a directory's write is held at the port as a store is, and its record names the endpoint's owner
    faultBoth (modCluster s (clusterOf r.core) fun x => { x with faulted := x.faulted ++ [{ onFault f r with va := r.addr }] })
      r.cid f acc r.addr (faultRec 1 acc r.addr r.tgt 0 0 0 0 0 0)
  | _ => s

/-- Whether a parked access itself is sent again; a fetch and a touch issue again with their instruction, and a store
is kept at the port (R209). -/
def resubmits (r : Access) : Bool :=
  match r.agent with
  | .load _ => true
  | .flush _ _ => true
  | .writeBack _ _ _ _ => true
  | _ => false

/-- A parked or stalled access sent again. -/
def sendAgain (s : State) (r : Access) : State :=
  let r := { r with phys := 0, va := 0 }
  match r.kind with
  | .remc => post s (.remoteAccessArrival r)
  | _ => atPort s r

/-- R209: the faulted stores of a property and the requests that they hold are tried again in arrival order; an entry's CODE
stays FAULTED until its store is acknowledged or refused. (DESIGN CHOICE, log entry 50) -/
def retryFaulted (s : State) (k : Nat) (p : Access → Bool) : State :=
  let x := cluster s k
  if x.faulted.any p then
    let rs := x.faulted.filter p ++ x.held
    let s := modCluster s k fun y => { y with faulted := y.faulted.filter (fun r => !p r), held := [] }
    rs.foldl sendAgain s
  else s

/-- R88: what the thread's own buffer says to a load: nothing, the bytes, or wait. -/
inductive Forward where
  | none
  | bytes (bs : List Byte)
  | blocked
  deriving DecidableEq, Repr

/-- The bytes of a store. -/
def storeCells (ws : List (Nat × Nat × Word)) : List (Nat × Byte) :=
  ws.flatMap fun w => cellsAt w.1 (leBytes w.2.1 w.2.2.toNat)

/-- The byte that a store's words give an address, the last one of it. -/
def storedByte (ws : List (Nat × Nat × Word)) (a : Nat) : Option Byte :=
  ((storeCells ws).reverse.find? fun c => c.1 == a).map Prod.snd

/-- The thread's own buffered stores of a space, oldest first, each with its words: address, size and data (R88, R185). -/
def ownStores (s : State) (slot : Nat) (k : Kind) (tgt : Nat) : List (List (Nat × Nat × Word)) :=
  ((core s (coreOf slot)).sb.filter fun e => e.slot == slot && !e.gone && e.kind == k && e.tgt == tgt && !e.flush).map SbEntry.words ++
    ((thr s slot).map fun t => (sortBy HeldStore.tx (t.streams.flatMap fun q =>
      q.2.held.filter fun h => h.kind == k && h.tgt == tgt)).map fun h => [(h.addr, h.size, h.data)]).getD []

/-- R88: the youngest overlapping entry decides. (DEDUCED, log entry 24) -/
def forwardAt (s : State) (slot : Nat) (k : Kind) (tgt a n : Nat) : Forward :=
  let es := (ownStores s slot k tgt).filter fun ws => ws.any fun w => meets a n w.1 w.2.1
  match es.getLast? with
  | .none => .none
  | some ws =>
    let bs := (List.range n).filterMap fun i => storedByte ws (a + i)
    if bs.length = n then .bytes bs else .blocked

/-- One piece of a vector load that is performed again, under a new number: its bytes forwarded once more, or to be asked
for (R88, R246). -/
def pieceAgain (s : State) (slot cid tx : Nat) (p : Piece) : Piece :=
  let q := { p with acc := { p.acc with tx := tx, xlated := false, phys := 0, cid := cid }, reply := none, early := false,
                    near := true, fixed := false }
  let n := match p.acc.op with
    | .read n => n
    | _ => 0
  match if p.fixed then forwardAt s slot p.acc.kind p.acc.tgt p.acc.addr n else .none with
  | .bytes bs => { q with reply := some (.data bs), fixed := true }
  | _ => q

/-- R175, R246: a vector load with a parked access is performed again as a whole: its pieces get new numbers, and are all
to be sent, but for those whose bytes its own store buffer gives. The accesses of a load that is made again already, under
other numbers, are not made. -/
def renumber (s : State) (slot : Nat) (r : Access) : State × List Access :=
  match (thr s slot).bind fun t => t.outs.find? fun o => o.pieces.any fun p => p.acc.tx == r.tx with
  | none => (s, if byLoad r then [] else [r])
  | some o =>
    if isVec o then
      let ps := o.pieces.zipIdx.map fun q => pieceAgain s slot r.cid (s.nextTx + q.2) q.1
      let old := o.pieces.map fun p => p.acc.tx
      let s := { s with nextTx := s.nextTx + ps.length }
      let again := fun (x : Outst) => if x.tx == o.tx then { x with pieces := ps, dieLocal := true } else x
      (modThr s slot fun t => { t with outs := t.outs.map again, parked := t.parked.filter fun q => !old.contains q.tx },
       (ps.filter fun p => p.reply.isNone).map Piece.acc)
    else (s, [r])

/-- Whether a thread's wait is that of its next instruction, which issues again (R183). -/
def retries : Status → Bool
  | .wait .retry => true
  | .wait (.fetch _) => true
  | .wait (.touch _) => true
  | _ => false

/-- R353: whether a thread has a pending asynchronous trap to take before its next instruction; a release that waits is such
an instruction. -/
def trapFirst (t : Thread) : Bool :=
  let releases := match t.status with
    | .wait (.release _ _) => true
    | _ => false
  !t.inh && !t.pend.isEmpty && (t.status == .ready || retries t.status || releases)

/-- R353: whether a pending asynchronous trap may be taken now. -/
def mayTrap (t : Thread) : Bool := t.saving.isNone && trapFirst t

/-- The accesses that a thread has kept are sent again: at once, or when no pending trap is left to be taken first
(R353, R357). -/
def resend (s : State) (slot : Nat) (atOnce : Bool) : State :=
  match thr s slot with
  | none => s
  | some t =>
    if t.stalled.isEmpty || t.status = .parked || (!atOnce && !t.pend.isEmpty) then s
    else t.stalled.foldl sendAgain (setThr s slot { t with stalled := [] })

/-- R175, R353, R357, R374: a PARKED thread's faulted accesses of a property are tried again; while others are left it stays
PARKED; once none is left it goes back to where it was, and the pending traps that it can take are taken before anything is
sent again.
(DEDUCED, log entry 26) -/
def unpark (s : State) (slot : Nat) (p : Access → Bool) : State :=
  match thr s slot with
  | none => s
  | some t =>
    if t.status = .parked && t.parked.any p then
      let again := (t.parked.filter p).filter resubmits
      let go := again.foldl (fun (q : State × List Access) r =>
        let x := renumber q.1 slot r
        (x.1, q.2 ++ x.2)) (modThr s slot fun x => { x with parked := x.parked.filter fun r => !p r }, [])
      let back := match t.resume with
        | some .entry => if awaitsEntry s slot then Status.wait .entry else .ready
        | some w => .wait w
        | none => .ready
      let free := ((thr go.1 slot).map fun x => x.parked.isEmpty).getD true
      let s := if free then
          let s := modThr go.1 slot fun x => { x with status := back, resume := none, stalled := x.stalled ++ go.2 }
          resend s slot (!trapFirst { t with status := back })
        else go.2.foldl sendAgain go.1
      t.pend.foldl (fun s _ => post s (.asyncTrapDelivery slot)) s
    else s

/-! ### Probes and fills at a core -/

/-- R45, R51: an invalidation probe at a core's L1. -/
def l1Probe (s : State) (c cid line : Nat) : State := rereadLine (markProbed (l1Drop s c cid line) c cid line) c cid line

/-- R51, R118, R391: a data reply lands at the oldest entry for its line that awaits it; one with poison is not
installed. A reply that may not be installed, since the host owns a half, holds the bytes of the first load only: the
loads that joined it perform again. -/
def l1Fill (s : State) (c cid line : Nat) (install : Bool) (data : Carried) : State :=
  match (core s c).mshr.find? fun m => m.cid == cid && m.line == line with
  | none => s
  | some m =>
    let s := modCore s c fun x => { x with mshr := x.mshr.erase m }
    let s := if install && !m.probed && data.bad.isEmpty then
        l1Install s c { line := line, cid := cid, data := data.bytes, tow := none }
      else s
    let give := fun (s : State) (j : Joined) =>
      let bs := (data.bytes.drop j.off).take j.size
      let ill := (List.range j.size).filter fun i => data.bad.contains ((j.off + i) / 4)
      post s (.loadDataArrives ⟨nodeCore c, j.slot⟩ j.tx j.addr ⟨if ill.isEmpty then .data bs else .poison bs ill, false⟩)
    let redo := fun (s : State) (j : Joined) =>
      match (thr s j.slot).bind fun t => t.outs.findSome? fun o => (o.pieces.find? fun p => p.acc.tx == j.tx).map Piece.acc with
      | some r => route s r
      | none => s
    let s := if install then m.joined.foldl give s
      else (m.joined.drop 1).foldl redo ((m.joined.take 1).foldl give s)
    retryQueued s (clusterOf c)

end Sys2Proof.Machine
end

