-- ==== Sys2Proof/Machine/Scratch.lean ====
section
/-! DEFINITION. The explicit levels where they are touched (R35): basin touches and their fills (R61, R62),
chip-scratchpad and remote accesses on arrival (R26, R106), and the store buffer with its drain and
journal (R87, R89, R98, R109, R210, R211). -/

namespace Sys2Proof.Machine

/-! ### Touches -/

/-- R61, R62: a fill of a basin line is asked for, unless one is pending. -/
def startFill (s : State) (c : Nat) (clus : Bool) (sline : Nat) : State :=
  match find (core s c).tags (tagKey clus sline) with
  | none => s
  | some t =>
    match t.fp, basin s c t.bn with
    | false, some b =>
      let va := basinVa b sline
      let r : Access :=
        { tx := s.nextTx, agent := .fill c clus sline, core := c, cid := cidOf s c, kind := .glob, tgt := 0, addr := va,
          op := .read 128, scope := .th, xlated := false, phys := 0, home := none, cache := 0, common := false,
          tracked := false, handle := none }
      atPort (tick (setTag s c clus sline { t with fp := true, probed := 0, unreg := false })) r
    | _, _ => s

/-- The fills that a touch of a byte range needs. -/
def startFills (s : State) (ls : List (Nat × Bool × Nat × BitVec 32)) : State :=
  forEach ls (fun s l => startFill s l.1 l.2.1 l.2.2.1) s

/-- The storage lines of a byte range. -/
def linesOf (a n : Nat) : List Nat := (List.range ((a + n - 1) / 128 + 1 - a / 128)).map fun i => a / 128 + i

/-- R61: what a touch of a byte range waits for: the line at which it takes its place, and the fills that it needs. Words
whose fill has landed for it are there; for words that a poisoned granule keeps absent it does not wait (R391); and it
stays behind touches issued earlier that still have landed bytes to take. -/
def touchWaits (s : State) (a n : Nat) (landed : Option Landed) (who : Toucher) :
    Option (Nat × List (Nat × Bool × Nat × BitVec 32)) :=
  let got := fun (line : Nat) => (landed.map fun x => if x.line = line then x.mask else 0).getD 0
  let need := (absentWords s a n).filter fun l =>
    l.2.2.2 &&& ~~~ poisonedWords s l.1 l.2.1 l.2.2.1 &&& ~~~ got (storageLine l.1 l.2.1 l.2.2.1) != 0
  match need with
  | l :: _ => some (storageLine l.1 l.2.1 l.2.2.1, need)
  | [] => ((linesOf a n).find? fun l => (tagAt s (l * 128)).isSome && othersFirst s who l).map fun l => (l, [])

/-- Whether a probe has already named words that a touch needs of a line whose fill is pending (R61, R69). -/
def probedNeed (s : State) (l : Nat × Bool × Nat × BitVec 32) : Bool :=
  ((find (core s l.1).tags (tagKey l.2.1 l.2.2.1)).map fun t => t.fp && t.probed &&& l.2.2.2 != 0).getD false

/-- A touch takes its place, and the fills that it needs are asked for. `fresh`: it stands behind a touch that takes no landed
bytes. (DEDUCED, log entry 41) -/
def waitTouch (s : State) (who : Toucher) (fresh : Bool) (w : Nat × List (Nat × Bool × Nat × BitVec 32)) : State :=
  let mine := w.2.filter fun l => storageLine l.1 l.2.1 l.2.2.1 == w.1
  startFills (joinTouch s w.1 who (mine.foldl (fun m l => m ||| l.2.2.2) 0) (fresh || w.2.any (probedNeed s))) w.2

/-- How many bytes an access spans. -/
def opBytes : MemOp → Nat
  | .read n => n
  | .write cells => cells.length
  | .atomic _ n _ _ => n
  | .reduce _ _ _ _ es => es.foldl (fun n e => n + e.src.length) 0
  | .flush => 0
  | .host _ _ => 64

/-- The remote accesses of the same core to some of the same bytes that wait at a storage line since before an access: it
must not pass them (R80, R89, R90). -/
def remoteBefore (s : State) (a n : Nat) (r : Access) : List Touch :=
  let ts := (cluster s (clusterOfLine (a / 128))).touches
  (ts.takeWhile fun t => t.who != .event (.remoteAccessArrival r)).filter fun t => match t.who with
    | .event (.remoteAccessArrival q) => q.core == r.core && q.tgt == r.tgt && meets q.addr (opBytes q.op) r.addr n
    | _ => false

/-- A remote access waits for a fill, or behind an earlier access, to come about again.
(DEDUCED, log entry 31) -/
def touchLater (s : State) (a n : Nat) (r : Access) : Option State :=
  let e := Event.remoteAccessArrival r
  let before := remoteBefore s a n r
  match touchWaits s a n (landedFor s a e) (.event e), before with
  | some w, _ => some (waitTouch s (.event e) (before.any Touch.fresh) w)
  | none, t :: _ => some (joinTouch s t.line (.event e) 0 true)
  | none, [] => none

/-- The record of a poisoned merge at an explicit place, by an access that reaches it (R390, R392). -/
def poisonedMerge (s : State) (a : Nat) (r : Access) : State :=
  mergeError s a (structureOf a) (writer s r).1 (writer s r).2 (unitOf a) (if a < coreBase then 0 else r.cid)
    (dieOfCluster (unitOf a))

/-- A write of an explicit level performed at the storage: bytes, poison and basin words (R35, R61, R390). -/
def storeAt (s : State) (a : Nat) (bs : List Byte) : State × Bool :=
  let p := writeExplicit (takePoison s a bs.length) a bs
  (noteWrite p.1 a bs.length, p.2)

/-! ### Chip-scratchpad and remote accesses (R26, R35, R106) -/

/-- What an access does at an explicit place, and the answer it gets from a node; landed bytes stand in for basin words that
a probe kept out (R61). -/
def performAt (s : State) (src a : Nat) (landed : Option Landed) (r : Access) : State :=
  match r.op with
  | .read n => answerRead (noteReads s a n) src r (readLanded s landed a n) (badBytes (takePoison s a n) a n)
  | .write cells =>
    let cs := cells.map fun c => (a + (c.1 - r.addr), c.2)
    let s := cs.foldl (fun s c => takePoison (putLanded s landed c.1 1) c.1 1) s
    let p := poisonCells s 4 (a / 128) cs
    let s := cs.foldl (fun s c => noteWrite s c.1 1) { p.1 with mem := writeCells p.1.mem cs }
    let s := p.2.foldl (fun s g => poisonedMerge s g r) s
    match r.agent with
    | .journal c es => ackEntries s src c es (granuleMask 4 p.2) none
    | .engine k j u => post s (.copyWriteAck ⟨src, k⟩ j u true false ⟨false, []⟩)
    | _ => s
  | .reduce sf df rm sc elems =>
    let n := fmtSize df 0
    let one := fun (p : State × Bool × List Byte) (e : RedElem) =>
      let b := a + (e.off - r.addr)
      -- an element that fills its granule is read, and not merged into it (R389, R390)
      let s := putLanded (if 4 ≤ n then meet p.1 b n else p.1) landed b n
      let ill := poisoned (takePoison s b n) b n
      let cs := reduceCells sf df rm sc b (readBytes s.mem b n) e.src ill
      let q := storeAt s b (cs.map Prod.snd)
      (if q.2 then poisonedMerge q.1 b r else q.1, p.2.1 || ill, p.2.2 ++ cs.map Prod.snd)
    let p := elems.foldl one (s, false, [])
    match r.agent with
    | .engine k j u => post p.1 (.copyWriteAck ⟨src, k⟩ j u true false ⟨p.2.1, p.2.2⟩)
    | _ => p.1
  | .atomic op size p n =>
    let old := readLanded s landed a size
    if poisoned (takePoison s a size) a size then
      answerRead (meet s a size) src r old (badBytes (takePoison s a size) a size)
    else
      let s := match atomicNew op (8 * size) (leNat old) p.toNat n.toNat with
        | some v => (storeAt (putLanded s landed a size) a (leBytes size v)).1
        | none => noteReads s a size
      answerRead s src r old []
  | _ => s

/-- R35: a chip-scratchpad access performed at its slice. -/
def chipArrives (s : State) (r : Access) : State := performAt s (nodeSlice (chipSlice r.addr)) (chipBase + r.addr) none r

/-- The core that a remote access reaches: that of the scratchpad, or of the portion of the shared memory that holds the
line (R18, R34, R49). (DEDUCED, log entry 40) -/
def remoteCore (r : Access) : Nat :=
  r.tgt * 8 + if r.addr < 0x200000 then r.addr / 2 ^ 18 else (r.addr - 0x200000) / 128 % 8

/-- R26: a remote access checked and performed, or refused, at its target cluster; it meets the basins that its storage has as
it arrives, also one that was mapped after it issued. (DESIGN CHOICE, log entry 51) -/
def remoteArrives (s : State) (r : Access) : State :=
  let src := nodeCore (remoteCore r)
  let e := Event.remoteAccessArrival r
  if (cluster s r.tgt).cid ≠ r.cid then refuse s src r 0 r.tgt 2
  else if !(cluster s r.tgt).acc.getLsbD (clusterOf r.core) then refuse s src r 0 r.tgt 3
  else
    let a := place r.core .remc r.tgt r.addr
    match touchLater s a (opBytes r.op) r with
    | some s => s
    | none => leaveTouch (performAt s src a (landedFor s a e) r) r.tgt (.event e) none

/-! ### The store buffer (R87 to R89, R98, R109) -/

/-- Whether a buffered store is die-local as far as the core knows when it reaches the head (R97, R98): a page with no TLB
entry counts as die-local. -/
def sbLocal (s : State) (c : Nat) (e : SbEntry) : Bool :=
  let a := (e.words.head?.map fun w => w.1).getD 0
  match e.kind with
  | .chip => dieOfCluster (chipSlice a) == dieOf c
  | .remc => dieOfCluster e.tgt == dieOf c
  | .glob => match tlbFind (cluster s (clusterOf c)).tlb (cidOf s c) a with
    | some t => t.home == some (dieOf c)
    | none => true
  | _ => false

/-- R98: a buffer's head has its homing looked up once, as it becomes the head. -/
def headSeen (s : State) (c : Nat) : State :=
  match (core s c).sb with
  | e :: rest => if e.near.isSome then s else modCore s c fun x => { x with sb := { e with near := some (sbLocal s c e) } :: rest }
  | [] => s

/-- Entries put at the end of a store buffer, the oldest to drain. -/
def enterBuffer (s : State) (c : Nat) (es : List SbEntry) : State :=
  post (headSeen (modCore s c fun x => { x with sb := x.sb ++ es }) c) (.storeDrain c)

/-- Whether the head entry is die-local, as it was seen. -/
def headLocal (s : State) (c : Nat) (e : SbEntry) : Bool := e.near.getD (sbLocal s c e)

/-- The line of a buffered or journalled store. -/
def storeLine (kind : Kind) (tgt a : Nat) : Nat × Nat × Nat := (kindCode kind, tgt, a / 128)

/-- The core's earlier die-local stores that are not acknowledged (R98). -/
def unackedLocal (s : State) (c : Nat) : List JEntry :=
  ((core s c).journal.map Prod.snd).filter fun j => !j.ref && j.code != 7 && j.dieLocal != some false

/-- Whether a core's thread, resident, saved or ended, has a die-local atomic outstanding (R98, R107).
(DEDUCED, log entry 24) -/
def atomicOut (s : State) (c : Nat) : Bool :=
  let out := fun (t : Thread) => t.outs.any fun o => o.atom && o.dieLocal
  !(core s c).goneAtoms.isEmpty || (s.threads.any fun p => coreOf p.1 == c && out p.2) ||
    s.saved.any fun x => x.core == c && out x.thread

/-- Whether a load that has not delivered is of some of the bytes that a buffered store writes; a read stream's elements have
no place in that order (R80, R82). -/
def loadsBytes (e : SbEntry) (o : Outst) : Bool :=
  let stream := match o.dest with
    | .stream _ => true
    | _ => false
  !stream && !o.atom && o.pieces.any fun p => p.acc.kind == e.kind && p.acc.tgt == e.tgt &&
    match p.acc.op with
    | .read n => e.words.any fun w => meets w.1 w.2.1 p.acc.addr n
    | _ => false

/-- R80, R100: whether a buffered store stands behind an earlier load of its thread, resident or saved, that has not
delivered: a die-local one, or one of its own bytes. (DEDUCED, log entry 24) -/
def behindLoad (s : State) (near : Bool) (e : SbEntry) : Bool :=
  let behind := fun (t : Thread) =>
    t.swid == e.swid && t.outs.any fun o => decide (o.tx < e.tx) && ((near && o.dieLocal) || loadsBytes e o)
  !e.gone && (((thr s e.slot).map behind).getD false || s.saved.any fun x => x.slot == e.slot && behind x.thread)

/-- R80, R98, R100: whether the head entry may drain now. (DEDUCED, log entry 24) -/
def mayDrain (s : State) (c : Nat) (e : SbEntry) : Bool :=
  if behindLoad s (headLocal s c e) e then false
  else if headLocal s c e then
    let a := (e.words.head?.map fun w => w.1).getD 0
    !atomicOut s c && (unackedLocal s c).all fun j => storeLine j.kind j.tgt j.addr == storeLine e.kind e.tgt a
  else true

/-- Free journal entries, lowest first. -/
def freeEntries (s : State) (c n : Nat) : Option (List Nat) :=
  let fs := ((List.range 32).filter fun i => (find (core s c).journal i).isNone).take n
  if fs.length = n then some fs else none

/-- The code of an access size (R210). -/
def sizeCode (n : Nat) : Nat := if n = 1 then 0 else if n = 2 then 1 else if n = 4 then 2 else 3

/-- A store that leaves the package: refused for the issuing device itself (R27, R79), else on its way to
the other device, whose answer or the domain timeout comes from outside (R116). (DESIGN CHOICE, log entry 16) -/
def toDomain (s : State) (r : Access) : State :=
  if r.tgt = s.pkg.dev then refuse s (nodeCore r.core) r 1 r.tgt 4 else postTimer s (.domainTimeout r)

/-- An access of a buffered space sent towards its performance point (R78, R89). -/
def send (s : State) (r : Access) : State :=
  match r.kind with
  | .glob => atPort s r
  | .chip => post s (.chipScratchpadAccess r)
  | .remc => post s (.remoteAccessArrival r)
  | .dom => toDomain s r
  | _ => s

/-- A held element as an entry of the store buffer. -/
def heldEntry (slot : Nat) (t : Thread) (h : HeldStore) : SbEntry :=
  { slot := slot, kind := h.kind, tgt := h.tgt, words := [(h.addr, h.size, h.data)], flush := false, tx := h.tx, swid := t.swid,
    m := t.level == .m }

/-- The elements of a core's write streams that may enter its buffer next, one of each stream, with the slot and register
that hold it; those that ended threads have left have none. -/
def heldHeads (s : State) (c : Nat) : List (SbEntry × Option (Nat × Nat)) :=
  ((core s c).leftOver.take 1).map (fun e => (e, none)) ++
    ((s.threads.filter fun p => coreOf p.1 == c).flatMap fun p => p.2.streams.filterMap fun q =>
      q.2.held.head?.map fun h => (heldEntry p.1 p.2 h, some (p.1, q.1)))

/-- The earliest of some elements, in push order. -/
def earliest : List (SbEntry × Option (Nat × Nat)) → Option (SbEntry × Option (Nat × Nat))
  | [] => none
  | x :: xs => match earliest xs with
    | none => some x
    | some y => if y.1.tx < x.1.tx then some y else some x

/-- A stream without its first held element; a finished stream that holds no more is unbound. -/
def dropHeld (t : Thread) (q : Nat) : Thread :=
  match find t.streams q with
  | some st =>
    let st := { st with held := st.held.drop 1 }
    { t with streams := if st.cnt = 0 && st.held.isEmpty then del t.streams q else put t.streams q st }
  | none => t

/-- Held write-stream elements enter the buffer as entries free, in push order over all streams (R82, R185). -/
def feedHeld (s : State) (c : Nat) : State :=
  (List.range 32).foldl (fun s _ =>
    if 32 ≤ (core s c).sb.length then s
    else match earliest (heldHeads s c) with
      | none => s
      | some (e, from_) =>
        let s := enterBuffer s c [e]
        match from_ with
        | none => modCore s c fun x => { x with leftOver := x.leftOver.drop 1 }
        | some (slot, q) => modThr s slot fun t => dropHeld t q) s

/-- R87, R98, R109: whether the head of a store buffer has nothing to wait for; an empty buffer has none. -/
def canDrain (s : State) (c : Nat) : Bool :=
  match (core s c).sb with
  | [] => true
  | e :: _ => e.flush || (mayDrain s c e && (freeEntries s c e.words.length).isSome)

/-- What remains of a buffer once its head has drained: the next head is seen, and held elements enter. -/
def popBuffer (s : State) (c : Nat) : State := post (feedHeld (headSeen s c) c) (.storeDrain c)

/-- R87, R98, R109, R211: the head of a store buffer drains into the journal and towards its home. -/
def drain (s : State) (c : Nat) : State :=
  match (core s c).sb with
  | [] => s
  | e :: rest =>
    let a := (e.words.head?.map fun w => w.1).getD 0
    let base : Access :=
      { tx := s.nextTx, agent := .flush c e.slot, core := c, cid := cidOf s c, kind := e.kind, tgt := e.tgt, addr := a,
        op := .flush, scope := .th, xlated := false, phys := 0, home := none, cache := 0, common := false,
        tracked := false, handle := none, m := e.m }
    if e.flush then
      popBuffer (send (tick (modCore s c fun x => { x with sb := rest })) { base with tx := e.tx }) c
    else if !mayDrain s c e then s
    else match freeEntries s c e.words.length with
      | none => s
      | some es =>
        let x := core s c
        let near := headLocal s c e
        let entry := fun (p : Nat × Nat × Nat × Word) (seq : BitVec 32) =>
          ({ ref := false, code := 0, size := sizeCode p.2.2.1, kind := e.kind, tgt := e.tgt, seq := seq, addr := p.2.1,
             data := p.2.2.2, swid := e.swid, slot := e.slot, gone := e.gone,
             dieLocal := if e.kind = .glob && near then none else some near
             reported := false } : JEntry)
        let step := fun (acc : NMap JEntry × BitVec 32) (p : Nat × Nat × Nat × Word) =>
          (put acc.1 p.1 (entry p (acc.2 + 1)), acc.2 + 1)
        let jn := (es.zip e.words).foldl step (x.journal, x.seq)
        let s := modCore s c fun y => { y with sb := rest, journal := jn.1, seq := jn.2 }
        popBuffer (send (tick s) { base with agent := .journal c es, op := .write (storeCells e.words) }) c

/-- A store refusal pending for its thread, in SEQ order among those pending (R211, R353). -/
def insertRefused (seqOf : Nat → Nat) (a : Async) : List Async → List Async
  | [] => [a]
  | b :: bs =>
    if b.cause == 0x22 && decide (seqOf a.tval.toNat < seqOf b.tval.toNat) then a :: b :: bs
    else b :: insertRefused seqOf a bs

/-- R210, R211, R353, R357: a store is refused: its entry is kept; the thread, resident or saved, gets
STORE-REFUSED pending; for a thread that has exited an ORPHAN record is appended. -/
def refuseEntry (s : State) (c e code : Nat) : State :=
  match find (core s c).journal e with
  | none => s
  | some j =>
    let seqOf := fun i => ((find (core s c).journal i).map fun k => k.seq.toNat).getD 0
    let a : Async := { cause := 0x22, tval := word e, tadr := 0, store := false }
    let s := modCore s c fun x => { x with journal := put x.journal e { j with ref := true, code := code, reported := true } }
    match if j.gone then none else thr s j.slot with
    | some t => post (setThr s j.slot { t with pend := insertRefused seqOf a t.pend }) (.asyncTrapDelivery j.slot)
    | none => orphan s j
where
  /-- The record of a refused store whose thread has exited; a saved thread has it pending. -/
  orphan (s : State) (j : JEntry) : State :=
    let mine := fun (x : Saved) => !j.gone && x.thread.swid == j.swid && x.slot == j.slot
    if s.saved.any mine then
      let f := fun (x : Saved) =>
        if mine x then
          { x with thread := { x.thread with pend := x.thread.pend ++ [{ cause := 0x22, tval := word e, tadr := 0, store := false }] } }
        else x
      { s with saved := s.saved.map f }
    else raiseFault s (cidOf s c) (faultRec 5 1 j.addr j.swid e j.slot 0 0 0 0)

/-- R115: an acknowledgement marked HP of one of a thread's accesses: its host-done is owed. -/
def oweHostDone (s : State) (slot tx : Nat) : State := modThr s slot fun t => { t with hostPending := t.hostPending ++ [tx] }

/-- R115: a host-done of a basin write-back is owed to the thread, resident or saved, whose release or basin instruction on a
core has sent it; that of a retirement's write-back is owed to none. (DESIGN CHOICE, log entry 51) -/
def oweWaiter (s : State) (c tag tx : Nat) : State :=
  match waiterOf s c tag with
  | some slot => oweHostDone s slot tx
  | none =>
    let owe := fun (t : Thread) => { t with hostPending := t.hostPending ++ [tx] }
    { s with saved := s.saved.map fun x => if x.core == c && waitsFor tag x.thread then { x with thread := owe x.thread } else x }

/-- R109, R115, R211: a store's acknowledgement or refusal reaches the journal; one marked HP names the access. -/
def ackStore (s : State) (c : Nat) (es : List Nat) (code : Nat) (hp : Option Nat) : State :=
  let s := match hp, es.head?.bind fun e => find (core s c).journal e with
    | some tx, some j => if j.gone then modCore s c fun x => { x with goneOwed := x.goneOwed ++ [tx] } else oweHostDone s j.slot tx
    | _, _ => s
  let s := es.foldl (fun s e => match find (core s c).journal e with
    | none => s
    | some j =>
      if code = 0 then modCore s c fun x => { x with journal := del x.journal e }
      else if code = 7 then modCore s c fun x => { x with journal := put x.journal e { j with code := 7 } }
      else refuseEntry s c e code) s
  post s (.storeDrain c)

end Sys2Proof.Machine
end

