-- ==== Sys2Proof/Machine/Answer.lean ====
section
/-! DEFINITION. The answer table of a die (spec/20_answer_table.md R313 to R334): entries, cursors, frames,
groups, snapshots, and the waking of waiters. -/

namespace Sys2Proof.Machine

/-- A die's answer table. -/
def tbl (s : State) (d : Nat) : Table := (die s d).table
/-- The state with a die's answer table changed. -/
def modTbl (s : State) (d : Nat) (f : Table → Table) : State := modDie s d fun x => { x with table := f x.table }

/-! ### Entries and keys (R314, R315) -/

/-- The placement hash of a key (R314). -/
def placeHash (cid callee : Nat) (key : List Word) : Word :=
  let h0 := word callee ^^^ word (cid * 2 ^ 52) ^^^ word ((key.length - 1) * 2 ^ 50)
  key.foldl (fun h k => ((h.rotateLeft 23) ^^^ k) * 0xD6E8FEB86659FD93#64) h0

/-- The entry of a key. -/
def entryOfKey (t : Table) (cid callee : Nat) (key : List Word) : Option Entry :=
  t.entries.find? fun e => e.cid == cid && e.callee == callee && e.key == key

/-- The entry of a creation number. -/
def entryOf (t : Table) (dfn : Nat) : Option Entry := t.entries.find? fun e => e.dfn == dfn

/-- A table with the entries of a property changed. -/
def modEntries (t : Table) (p : Entry → Bool) (f : Entry → Entry) : Table :=
  { t with entries := t.entries.map fun e => if p e then f e else e }

/-- R316: whether the table has storage for one more answer of w words at a slice: the slice's 256 KiB, or
the answer pages of the table area. (DEDUCED, log entry 22) -/
def hasStorage (s : State) (d sl w : Nat) : Bool :=
  let spill := fun (n : Nat) => n - 262144
  let total := (List.range 64).foldl
    (fun n i => n + spill (heldBytes s (d * 64 + i) + if d * 64 + i = sl then 8 * w + 8 else 0)) 0
  let area := fld (die s d).tblArea 5 0
  decide (total ≤ if 20 ≤ area ∧ area ≤ 36 then 2 ^ area else 0)

/-! ### Cursors (R318) -/

/-- A cursor word. -/
def cursorWord (d tag r : Nat) : Word := word (d * 2 ^ 62 + tag * 2 ^ 48 + r)

/-- The die of a cursor word. -/
def cursorDie (c : Word) : Nat := fld c 63 62
/-- The record index of a cursor word. -/
def cursorRec (c : Word) : Nat := fld c 13 0

/-- The cursor record that a new cursor takes: the lowest free one. (DESIGN CHOICE, log entry 50) -/
def freeCursor (t : Table) : Option Nat :=
  scan (fun r => match find t.cursors r with
    | some c => !c.used
    | none => true) 16384 0

/-- A new cursor on an entry at a position, with its word. (DEDUCED, log entry 22) -/
def newCursor (t : Table) (d dfn pos : Nat) : Option (Table × Word) :=
  match freeCursor t with
  | none => none
  | some r =>
    let tag := ((find t.cursors r).map fun c => c.tag).getD 1
    let t := { t with cursors := put t.cursors r { tag := tag, entry := dfn, pos := pos, failed := false, cause := 0, used := true } }
    some (modEntries t (fun e => e.dfn == dfn) (fun e => { e with cur := e.cur + 1 }), cursorWord d tag r)

/-- R318, R327: a cursor record freed: its tag advances and skips 0, and its entry's CUR drops. -/
def dropCursor (t : Table) (r : Nat) : Table :=
  match find t.cursors r with
  | some c =>
    if c.used then
      let t := { t with cursors := put t.cursors r { c with used := false, tag := if c.tag = 16383 then 1 else c.tag + 1 } }
      modEntries t (fun e => e.dfn == c.entry) (fun e => { e with cur := e.cur - 1 })
    else t
  | none => t

/-! ### TNEXT's decision (R325) -/

/-- The result words of a TNEXT: status word and four answer words. -/
def tnextWords (status : Nat) (a : List Word) : List Word := (word status :: a ++ [0, 0, 0, 0]).take 5

/-- R325 for a cursor record: an answer (with the next position), END or ERROR; none where the thread waits
or forks. -/
def tnextDecide (t : Table) (r : Nat) : Option (List Word × Bool) :=
  match find t.cursors r with
  | none => none
  | some c =>
    let e := entryOf t c.entry
    let err := fun (cause : Nat) => some (tnextWords (cause * 2 ^ 16 + 3) [], false)
    if c.failed then err c.cause
    else match e with
    | none => err c.cause
    | some e =>
      if e.st == .failed then err e.cause
      else match e.answers[c.pos]? with
      | some a => some (tnextWords ((a.length - 1) * 2 ^ 8) a, true)
      | none => if e.st == .complete then some (tnextWords 1 [], false) else none

/-- A cursor one position further. -/
def advance (t : Table) (r : Nat) : Table :=
  match find t.cursors r with
  | some c => { t with cursors := put t.cursors r { c with pos := c.pos + 1 } }
  | none => t

/-- The registers that a TNEXT writes. -/
def tnextRegs (d : Nat) (ws : List Word) : List (Nat × Word) := ws.zipIdx.map fun p => (d + p.2, p.1)

/-- The cursor that a waiting thread's TNEXT names on a die. -/
def tnextWait (d : Nat) : Wait → Option (Nat × Nat)
  | .tnext dreg c _ => if cursorDie c = d then some (dreg.toNat, cursorRec c) else none
  | _ => none

/-- Whether a thread, resident or saved, waits in TNEXT on an entry of a die (R325). -/
def hasWaiter (s : State) (d dfn : Nat) : Bool :=
  let on := fun (t : Thread) => ((waitOf t).bind (tnextWait d)).any fun w =>
    ((find (tbl s d).cursors w.2).map Cursor.entry) == some dfn
  (s.threads.any fun p => on p.2) || s.saved.any fun c => on c.thread

/-- R330, R331: the failed entries of a die that no thread waits on are freed. -/
def freeFailed (s : State) (d : Nat) : State :=
  modTbl s d fun t => { t with entries := t.entries.filter fun e => e.st != .failed || hasWaiter s d e.dfn }

/-- R325, R329, R330: every waiting TNEXT of a die whose decision is now made completes; a FAILED entry whose last waiter has
been woken is freed. (DEDUCED, log entry 22) -/
def wakeTnext (s : State) (d : Nat) : State :=
  let t := tbl s d
  let recOf := fun (th : Thread) => match waitOf th with
    | some w => (tnextWait d w).map Prod.snd
    | none => none
  let recs := (s.threads.map Prod.snd ++ s.saved.map Saved.thread).filterMap recOf
  let moved := recs.filter fun r => match tnextDecide t r with
    | some (_, b) => b
    | none => false
  let s := completeWaits s fun _ _ w => match tnextWait d w with
    | some (dreg, r) => (tnextDecide t r).map fun x => tnextRegs dreg x.1
    | none => none
  freeFailed (modTbl s d fun t => moved.foldl advance t) d

/-! ### Snapshots (R326) -/

/-- A snapshot record freed with its cursor record, wherever it waits. -/
def dropSnap (s : State) (d i : Nat) : State :=
  let s := modTbl s d fun t => match find t.snaps i with
    | some n => { dropCursor t (cursorRec n.cursor) with snaps := del t.snaps i }
    | none => t
  let freed := (s.cores.filter fun p => p.2.spawnQ.contains (.snap d i)).map fun p => Event.slotGrant p.1
  let cut := fun (x : Core) => { x with
    heldSnaps := x.heldSnaps.filter fun y => y != (d, i), spawnQ := x.spawnQ.filter fun q => q != .snap d i
    aged := x.aged && x.spawnQ.head? != some (.snap d i) }
  let away := fun (f : Flotilla) => { f with shares := f.shares.map fun x => { x with spawnQ := x.spawnQ.filter fun q => q != .snap d i } }
  postAll { s with cores := s.cores.map fun p => (p.1, cut p.2), flotillas := s.flotillas.map fun p => (p.1, away p.2) } freed

/-- The snapshots parked on, or runnable for, entries of a property. -/
def snapsOf (t : Table) (p : Nat → Bool) : List Nat := (t.snaps.filter fun x => p x.2.entry).map Prod.fst

/-! ### Groups (R329, R330, R324) -/

/-- The entries of a group. -/
def groupDfns (t : Table) (g : Nat) : List Nat := (t.entries.filter fun e => e.grp == g && e.st == .open_).map Entry.dfn

/-- Frames of a die's entries marked dead with a cause. -/
def killFrames (s : State) (d cause : Nat) (dfns : List Nat) : State :=
  let f := fun (x : Frame) => if x.die == d && dfns.contains x.entry && x.dead == 0 then { x with dead := cause } else x
  let g := fun (t : Thread) => { t with frames := t.frames.map f }
  { s with threads := s.threads.map fun p => (p.1, g p.2), saved := s.saved.map fun c => { c with thread := g c.thread } }

/-- A partition's count of a die's table raised, modulo 2^32 (R328). -/
def bump (m : NMap Nat) (cid : Nat) : NMap Nat := put m cid (((find m cid).getD 0 + 1) % 2 ^ 32)

/-- R330, R331: the wakes that a failure has sent are delivered: the waiters return ERROR, and their entries are freed. -/
def execFailureWake (d : Nat) (s : State) : Host.Outcome State Fault Refusal := .next (wakeTnext s d)

/-- R324, R330, R331: a group fails: its entries fail, cursor records on them are marked, its snapshots go, its
frames are dead, and its record is freed; its waiters' wakes are on their way, and until then its entries are found FAILED.
(DEDUCED, log entry 22) -/
def failGroup (s : State) (d g cause : Nat) : State :=
  let dfns := groupDfns (tbl s d) g
  let cid := (((tbl s d).entries.find? fun e => dfns.contains e.dfn).map fun e => e.cid).getD 0
  let s := modTbl s d fun t =>
    let t := modEntries t (fun e => dfns.contains e.dfn) fun e => { e with st := .failed, cause := cause }
    { t with
      cursors := t.cursors.map fun c => if c.2.used && dfns.contains c.2.entry then (c.1, { c.2 with failed := true, cause := cause }) else c
      groups := del t.groups g
      fails := bump t.fails cid }
  let s := (snapsOf (tbl s d) dfns.contains).foldl (fun s i => dropSnap s d i) s
  post (freeFailed (killFrames s d cause dfns) d) (.failureWake d)

/-- R329: a group without producers and activations is complete. -/
def checkGroup (s : State) (d g : Nat) : State :=
  match find (tbl s d).groups g with
  | some ⟨0, 0⟩ =>
    let dfns := groupDfns (tbl s d) g
    let s := modTbl s d fun t => { modEntries t (fun e => dfns.contains e.dfn) (fun e => { e with st := .complete }) with
      groups := del t.groups g }
    let s := (snapsOf (tbl s d) dfns.contains).foldl (fun s i => dropSnap s d i) s
    wakeTnext s d
  | _ => s

/-- A group's counts changed. -/
def modGroup (s : State) (d g : Nat) (f : TGroup → TGroup) : State :=
  modTbl s d fun t => match find t.groups g with
    | some x => { t with groups := put t.groups g (f x) }
    | none => t

/-- The group of a live frame's entry. -/
def groupOfDfn (t : Table) (dfn : Nat) : Option Nat := (entryOf t dfn).map Entry.grp

/-- The smallest creation number of a group: its leader's. -/
def leader (t : Table) (g : Nat) : Nat :=
  (groupDfns t g).foldl (fun m x => if m = 0 || x < m then x else m) 0

/-- R330: two groups merge into the record of the one whose leader is older. -/
def mergeGroups (s : State) (d g h : Nat) : State :=
  if g = h then s
  else
    let t := tbl s d
    let keep := if leader t g < leader t h then g else h
    let lose := if leader t g < leader t h then h else g
    match find t.groups keep, find t.groups lose with
    | some x, some y =>
      modTbl s d fun t =>
        let t := modEntries t (fun e => e.grp == lose) fun e => { e with grp := keep }
        { t with groups := del (put t.groups keep { p := x.p + y.p, a := x.a + y.a }) lose }
    | _, _ => s

/-! ### Frames (R323, R333) -/

/-- R327: every cursor of a list released. -/
def releaseCursors (s : State) (cs : List Word) : State :=
  cs.foldl (fun s c => modTbl s (cursorDie c) fun t => dropCursor t (cursorRec c)) s

/-- R333: the groups of the live frames of a thread that ends fail with cause FAULT. -/
def failFrames (s : State) (fs : List Frame) : State :=
  fs.foldl (fun s f =>
    if f.dead != 0 then s
    else match groupOfDfn (tbl s f.die) f.entry with
      | some g => failGroup s f.die g 1
      | none => s) s

/-- The lists that a thread had in the table, given up at its end (R287, R327, R333). A group that an earlier
frame's failure has taken is not failed again. -/
def leaveTables (s : State) (slot : Nat) : State :=
  match thr s slot with
  | none => s
  | some t =>
    let s := (List.range t.frames.length).foldl (fun s k => match (thr s slot).bind fun t => t.frames[k]? with
      | some f => failFrames s [f]
      | none => s) s
    releaseCursors s t.cursors

/-! ### Eviction and freeing (R330, R332) -/

/-- An entry removed from the table. -/
def dropEntry (t : Table) (dfn : Nat) : Table := { t with entries := t.entries.filter fun e => e.dfn != dfn }

/-- R332: room for an entry in a set of 8 ways: as it is, or with the least recently used unpinned COMPLETE
entry evicted; none when every way is pinned. -/
def roomIn (t : Table) (sl set : Nat) : Option Table :=
  let es := t.entries.filter fun e => e.slice == sl && e.set == set
  if es.length < 8 then some t
  else
    let free := es.filter fun e => e.st == .complete && e.cur == 0
    let old := free.foldl (fun (m : Option Entry) e => match m with
      | none => some e
      | some x => if e.lru < x.lru then some e else some x) none
    old.map fun e => { dropEntry t e.dfn with evict := bump t.evict e.cid }

end Sys2Proof.Machine
end

