-- ==== Sys2Proof/Machine/Groups.lean ====
section
/-! DEFINITION. Group records (spec/18_isa_tasks.md R293 to R296) and sluices (R297 to R299). -/

namespace Sys2Proof.Machine

/-! ### Results (R283) -/

/-- A result word: a status in [63:56] over other bits. -/
def result (status rest : Nat) : Word := word (status * 2 ^ 56 + rest)

/-! ### Groups -/

/-- A group's record in use. -/
def groupRec (s : State) (g : Nat) : Option Group := find (die s (g / 4096)).groups (g % 4096)
/-- A group's record set. -/
def setGroup (s : State) (g : Nat) (r : Group) : State :=
  modDie s (g / 4096) fun d => { d with groups := put d.groups (g % 4096) r }
/-- A group's record freed. -/
def delGroup (s : State) (g : Nat) : State := modDie s (g / 4096) fun d => { d with groups := del d.groups (g % 4096) }

/-- The partition and membership slots of those who wait in JOIN on a group. -/
def joinWaiters (s : State) (g : Nat) : List (Nat × Nat) :=
  let want := fun (t : Thread) => match waitOf t with
    | some (.join _ h) => h == g
    | _ => false
  (s.threads.filter fun p => want p.2).map (fun p => (p.1, cidOf s (coreOf p.1))) ++
    (s.saved.filter fun c => want c.thread).map (fun c => (c.slot, cidOf s c.core))

/-- R293: once AC is 0, every thread that waits in JOIN becomes a member; a record freed meanwhile is taken
again. -/
def joinAll (s : State) (g : Nat) : State :=
  match joinWaiters s g with
  | [] => s
  | (w, cid) :: ws =>
    let n := ((w, cid) :: ws).length
    let r := match groupRec s g with
      | some r => { r with mc := r.mc + n }
      | none => { cid := cid, mc := n, ac := 0, gen := 0 }
    let add := fun (t : Thread) => match waitOf t with
      | some (.join _ h) => if h = g then { t with groups := t.groups ++ [g] } else t
      | _ => t
    let s := { s with threads := s.threads.map (fun p => (p.1, add p.2)), saved := s.saved.map fun c => { c with thread := add c.thread } }
    completeWaits (setGroup s g r) fun _ _ w => match w with
      | .join d h => if h = g then some [(d.toNat, result 0 0)] else none
      | _ => none

/-- R295: the open episode released: GEN + 1, AC := 0, every waiter returns its generation. -/
def releaseGroup (s : State) (g : Nat) (r : Group) : State :=
  let s := setGroup s g { r with ac := 0, gen := (r.gen + 1) % 2 ^ 16 }
  let s := completeWaits s fun _ _ w => match w with
    | .gbar d h _ n => if h = g && n = r.gen then some [(d.toNat, result 0 r.gen)] else none
    | _ => none
  joinAll s g

/-- R294: a member leaves; `arrived` when its own arrival leaves with it. -/
def leaveGroup (s : State) (g : Nat) (arrived : Bool) : State :=
  match groupRec s g with
  | none => s
  | some r =>
    let r := { r with mc := r.mc - 1, ac := if arrived then r.ac - 1 else r.ac }
    if r.mc = 0 then joinAll (delGroup s g) g
    else if r.ac = r.mc then releaseGroup s g r
    else
      let s := setGroup s g r
      if r.ac = 0 then joinAll s g else s

/-- R287: every membership of a thread ends. -/
def leaveGroups (s : State) (t : Thread) : State :=
  t.groups.foldl (fun s g =>
    let arrived := match waitOf t with
      | some (.gbar _ h _ _) => h == g
      | _ => false
    leaveGroup s g arrived) s

/-! ### Sluices -/

/-- Whether a flotilla is suspended by a tenant change, or being handed over (R361). -/
def flotillaHeld (s : State) (f : Nat) : Bool := ((find s.flotillas f).map fun f => f.suspended || f.next.isSome).getD false

/-- The count for a sluice in a value of TS.SLC (R297). -/
def countIn (r : Word) (tree : Bool) (idx : Nat) : Nat := if tree then fld r 38 32 else fld r (8 * idx + 6) (8 * idx)

/-- A core's local count for a sluice (R297). -/
def localCount (s : State) (c : Nat) (tree : Bool) (idx : Nat) : Nat := countIn (core s c).slc tree idx

/-- Whether a thread is of the flotilla that its core's sluices serve: not of one that is being handed over (R361). -/
def ofTenant (s : State) (c : Nat) (t : Thread) : Bool := t.flotilla == (cluster s (clusterOf c)).flotilla

/-- The local count for a sluice as a thread has it: of a flotilla that is being handed over, the one saved with it (R361). -/
def countFor (s : State) (c : Nat) (t : Thread) (tree : Bool) (idx : Nat) : Nat :=
  if ofTenant s c t then localCount s c tree idx
  else match (find s.flotillas t.flotilla).bind fun f => f.shares.find? fun x => x.core == c with
    | some x => countIn x.slc tree idx
    | none => 0

/-- The clusters that a sluice spans: the core's own, or its flotilla's. -/
def sluiceClusters (s : State) (c : Nat) (tree : Bool) : List Nat :=
  if tree then ((find s.flotillas (cluster s (clusterOf c)).flotilla).map fun f => f.clusters).getD []
  else [clusterOf c]

/-- The participants of a core's sluice: cores whose count is not zero (R297). -/
def participants (s : State) (c : Nat) (tree : Bool) (idx : Nat) : List Nat :=
  ((sluiceClusters s c tree).flatMap fun k => (List.range 8).map fun i => k * 8 + i).filter fun x =>
    localCount s x tree idx != 0

/-- The die that keeps a tree's episode: that of the flotilla's lowest cluster. -/
def treeDie (s : State) (c : Nat) : Nat := dieOfCluster ((sluiceClusters s c true).headD (clusterOf c))

/-- The open episode of a core's sluice. -/
def episode (s : State) (c : Nat) (tree : Bool) (idx : Nat) : Episode :=
  (if tree then find (die s (treeDie s c)).trees idx else find (cluster s (clusterOf c)).sluices idx).getD { counts := [] }

/-- The open episode replaced; an empty one is not listed. -/
def setEpisode (s : State) (c : Nat) (tree : Bool) (idx : Nat) (e : Episode) : State :=
  let upd := fun (m : NMap Episode) => if e.counts.isEmpty then del m idx else put m idx e
  if tree then modDie s (treeDie s c) fun d => { d with trees := upd d.trees }
  else modCluster s (clusterOf c) fun k => { k with sluices := upd k.sluices }

/-- Whether a core of the same sluice: in the same cluster, or a cluster of the same flotilla. -/
def sameSluice (s : State) (c x : Nat) (tree : Bool) : Bool := (sluiceClusters s c tree).contains (clusterOf x)

/-- R298, R299: the episode released with a result word: its counted waiters complete, the counts clear and the
timers stop; the waiters of a flotilla that is away have an episode of their own (R361). -/
def releaseSluice (s : State) (c : Nat) (tree : Bool) (idx : Nat) (r : Word) : State :=
  let s0 := s
  let s := setEpisode s c tree idx { counts := [] }
  let stays := fun (e : Event) => match e with
    | .sluiceTimeout x t i => !(t == tree && i == idx && sameSluice s0 c x tree)
    | _ => true
  let s := { s with timers := s.timers.filter stays }
  completeWaits s fun x th w => match w with
    | .sluice d t i true => if t = tree && i = idx && sameSluice s0 c x tree && ofTenant s0 x th then some [(d.toNat, r)] else none
    | _ => none

/-- R298: one arrival by a core that has not counted its arrivals yet; the one that completes the episode
releases it. -/
def arrive (s : State) (c : Nat) (tree : Bool) (idx : Nat) : State :=
  let e := episode s c tree idx
  let n := (find e.counts c).getD 0
  let s := if n = 0 && (core s c).slto != 0 then postTimer s (.sluiceTimeout c tree idx) else s
  let e := { e with counts := put e.counts c (n + 1) }
  let s := setEpisode s c tree idx e
  if (participants s c tree idx).all fun x => decide (localCount s x tree idx ≤ (find e.counts x).getD 0) then
    releaseSluice s c tree idx (result 0 0)
  else s

/-- The waits of a sluice whose arrival is not counted yet, oldest first: slot, saved or not, and core. -/
def uncounted (s : State) (c : Nat) (tree : Bool) (idx : Nat) : List (Nat × Nat × Nat × Bool) :=
  let want := fun (x : Nat) (t : Thread) => match waitOf t with
    | some (.sluice _ b i false) => b == tree && i == idx && sameSluice s c x tree && ofTenant s x t
    | _ => false
  let l := (s.threads.filter fun p => want (coreOf p.1) p.2).map (fun p => (p.2.seqno, p.1, coreOf p.1, false)) ++
    (s.saved.filter fun q => want q.core q.thread).map (fun q => (q.thread.seqno, q.slot, q.core, true))
  sortBy Prod.fst l

/-- A wait in SLUICE marked counted. -/
def markCounted (t : Thread) : Thread :=
  match waitOf t with
  | some (.sluice d b i _) => setWait t (.sluice d b i true)
  | _ => t

/-- R298: waits left over from a released episode count in the next, as their cores have room; each release
lets the rest try again. -/
def countNext (s : State) (c : Nat) (tree : Bool) (idx : Nat) : Nat → State
  | 0 => s
  | n + 1 =>
    let room := fun (w : Nat × Nat × Nat × Bool) =>
      decide ((find (episode s c tree idx).counts w.2.2.1).getD 0 < localCount s w.2.2.1 tree idx)
    match (uncounted s c tree idx).find? room with
    | none => s
    | some w =>
      let s := if w.2.2.2 then
          { s with saved := s.saved.map fun q =>
              if q.slot = w.2.1 && q.core = w.2.2.1 && q.thread.seqno = w.1 then { q with thread := markCounted q.thread } else q }
        else modThr s w.2.1 markCounted
      countNext (arrive s w.2.2.1 tree idx) c tree idx n

/-- Every wait of a sluice that may now be counted is. -/
def settleSluice (s : State) (c : Nat) (tree : Bool) (idx : Nat) : State :=
  countNext s c tree idx (uncounted s c tree idx).length

/-- R299: the result of a timeout: the missing participants. -/
def missingWord (s : State) (c : Nat) (tree : Bool) (idx : Nat) : Word :=
  let e := episode s c tree idx
  let gone := (participants s c tree idx).filter fun x => decide ((find e.counts x).getD 0 < localCount s x tree idx)
  let mask := fun (k : Nat) => (gone.filter fun x => clusterOf x == k).foldl (fun m x => m + 2 ^ (x % 8)) 0
  if tree then
    let ks := (gone.map clusterOf).eraseDups
    let low := ks.foldl (fun m k => if k < m then k else m) (ks.headD 0)
    result 2 (ks.length * 2 ^ 16 + low * 2 ^ 8 + mask low)
  else result 2 (mask (clusterOf c))

end Sys2Proof.Machine
end

