-- ==== Sys2Proof/Machine/Endpoints.lean ====
section
/-! DEFINITION. Endpoint directories and receive rings (spec/18_isa_tasks.md R300 to R311). -/

namespace Sys2Proof.Machine

/-- The parts of an endpoint name (R300). -/
def epDie (name : Nat) : Nat := name / 2 ^ 30 % 4
/-- The tag of a name. -/
def epTag (name : Nat) : Nat := name / 2 ^ 16 % 2 ^ 14
/-- The entry index of a name. -/
def epIdx (name : Nat) : Nat := name % 2 ^ 16
/-- A name from its parts. -/
def epName (d tag i : Nat) : Nat := d * 2 ^ 30 + tag * 2 ^ 16 + i

/-- The directory entry under a name: its tag, state and CID match (R300). -/
def epFind (s : State) (cid name : Nat) : Option Endpoint :=
  (find (die s (epDie name)).eps (epIdx name)).filter fun e => e.st != .free && e.tag == epTag name && e.cid == cid

/-- An entry written. -/
def setEp (s : State) (name : Nat) (e : Endpoint) : State :=
  modDie s (epDie name) fun d => { d with eps := put d.eps (epIdx name) e }

/-- R310: an entry freed: its tag advances. What stands in its overflow ring is in flight no more, and goes with it.
(DESIGN CHOICE, log entry 51) -/
def freeEp (s : State) (name : Nat) (e : Endpoint) : State :=
  setEp s name { e with st := .free, tag := (e.tag + 1) % 2 ^ 14, cid := 0, owner := 0, slot := none, core := 0, local_ := none,
                        ln := 0, overRing := none, on_ := 0, head := 0, headCopy := 0, tail := 0, sent := [],
                        ovTail := 0, ovf := [], stub := 0 }

/-- The name that a name leads to through stubs (R306, R309). -/
def epLead (s : State) (cid : Nat) : Nat → Nat → Option Nat
  | 0, _ => none
  | n + 1, name =>
    match epFind s cid name with
    | none => none
    | some e => if e.st = .moved then epLead s cid n e.stub else some name

/-- How many stubs are followed at most: there are no more entries. -/
def maxStubs : Nat := 262144

/-- A bounce in the sending core's inbox (R186, R304). -/
def bounceWord (status name : Nat) : Word := word (2 * 2 ^ 60 + status * 2 ^ 48 + name * 2 ^ 16)

/-- A message bounced. -/
def bounce (s : State) (m : Message) (status : Nat) : State := post s (.inboxDelivery m.core (bounceWord status m.name))

/-- Whether a local ring has a free slot, by the directory's copy of HEAD (R303). -/
def ringFree (e : Endpoint) : Bool := e.local_.isSome && decide ((e.tail + 2 ^ 32 - e.headCopy) % 2 ^ 32 < 2 ^ e.ln)

/-- Bytes that hardware writes into an explicit level: a touch of each word, whose other absent words are
filled too (R61). -/
def hwStore (s : State) (a : Nat) (bs : List Byte) : State :=
  (storeAt (startFills s (absentWords s a bs.length)) a bs).1

/-- The storage place of a byte of a local ring. -/
def ringPlace (e : Endpoint) (o : Operand) (off : Nat) : Nat := place e.core o.kind o.tgt (o.addr + off)

/-- The bytes of a slot (R302). -/
def slotBytes (m : Message) : List Byte :=
  let h := m.swid * 2 ^ 32 + m.core * 2 ^ 16 + (m.words.length - 1) * 2 ^ 8 + m.hop
  (leBytes 8 h ++ m.words.flatMap fun w => leBytes 8 w.toNat) ++ List.replicate (56 - 8 * m.words.length) 0

/-- A message written into the local ring: the slot, then TAIL (R302). TAIL and HEAD go on from the directory entry's own
values, whatever a program has stored there (R303). (DESIGN CHOICE, log entry 50) -/
def putLocal (s : State) (name : Nat) (e : Endpoint) (m : Message) : State :=
  match e.local_ with
  | none => s
  | some o =>
    let s := hwStore s (ringPlace e o (64 + 64 * (e.tail % 2 ^ e.ln))) (slotBytes m)
    let tail := (e.tail + 1) % 2 ^ 32
    let s := hwStore s (ringPlace e o 0) (leBytes 8 tail)
    setEp s name { e with tail := tail, sent := e.sent ++ [m.name] }

/-- Whether the sending cluster's MSG bit lets it reach the ring's cluster (R25, R305). -/
def msgAllowed (s : State) (e : Endpoint) (m : Message) : Bool :=
  (cluster s (clusterOf m.core)).msg.getLsbD (clusterOf e.core)

/-- Bytes that a directory writes into an entry's overflow ring, on their way through the port of the ring's core (R302). -/
def overStore (s : State) (e : Endpoint) (off : Nat) (bs : List Byte) : State :=
  match e.overRing with
  | none => s
  | some o => atPort (tick s)
      { tx := s.nextTx, agent := .scheduler, core := e.core, cid := e.cid, kind := .glob, tgt := e.owner, addr := o.addr + off,
        op := .write (cellsAt (o.addr + off) bs), scope := .th, xlated := false, phys := 0, home := none, cache := 0,
        common := false, tracked := false, handle := none }

/-- A message kept in the overflow ring, its slot and then the ring's TAIL written, or bounced FULL (R302, R303).
(DESIGN CHOICE, log entry 21) -/
def putOver (s : State) (name : Nat) (e : Endpoint) (m : Message) : State :=
  if e.overRing.isSome && decide (e.ovf.length < 2 ^ e.on_) then
    let tail := (e.ovTail + 1) % 2 ^ 32
    let s := overStore s e (64 + 64 * (e.ovTail % 2 ^ e.on_)) (slotBytes m)
    setEp (overStore s e 0 (leBytes 8 tail)) name { e with ovf := e.ovf ++ [m], ovTail := tail }
  else bounce s m 9

/-- An entry without the oldest message of its overflow ring, whose HEAD moves on (R303).
(DESIGN CHOICE, log entry 21) -/
def takeOver (s : State) (name : Nat) (e : Endpoint) : State :=
  let left := e.ovf.drop 1
  setEp (overStore s e 8 (leBytes 8 ((e.ovTail + 2 ^ 32 - left.length) % 2 ^ 32))) name { e with ovf := left }

/-- R303: overflow messages moved into the local ring in order, at most n of them; a refused one bounces
DENIED, and counts for none. The first number bounds how many are looked at. -/
def copyIn (s : State) (name cid : Nat) : Nat → Nat → State
  | 0, _ => s
  | _, 0 => s
  | k + 1, n + 1 =>
    match epFind s cid name with
    | none => s
    | some e =>
      match e.ovf with
      | [] => s
      | m :: ms =>
        if e.st = .placed && ringFree e then
          let s := takeOver s name e
          if msgAllowed s e m then copyIn (putLocal s name { e with ovf := ms } m) name cid k n
          else copyIn (bounce s m 10) name cid k (n + 1)
        else s

/-- R306: what a receiver at a core gets now: a result, or none while it waits. -/
def recvNow (s : State) (c cid name : Nat) : Option Word :=
  match (epLead s cid maxStubs name).bind fun n => epFind s cid n with
  | none => some (result 5 0)
  | some e =>
    match e.local_ with
    | none => some (result 6 0)
    | some o =>
      if e.st = .exited || e.st = .unplaced then some (result 6 0)
      else if o.kind = .core && c != e.core then some (result 6 0)
      else if clusterOf c != clusterOf e.core then some (result 6 0)
      else if e.tail = e.head then none
      else some (result 0 ((o.addr - o.base + 64 + 64 * (e.head % 2 ^ e.ln)) % 2 ^ 32))

/-- Whether a thread waits in RECV or RECVT. -/
def receives (t : Thread) : Bool :=
  match waitOf t with
  | some (.recv _ _) => true
  | _ => false

/-- Receivers whose answer has come complete; their limits stop (R306). -/
def wakeRecv (s : State) : State :=
  let s0 := s
  let s := completeWaits s fun c _ w => match w with
    | .recv d name => (recvNow s0 c (cidOf s0 c) name).map fun r => [(d.toNat, r)]
    | _ => none
  let live := fun (e : Event) => match e with
    | .recvtLimit slot => ((thr s slot).map receives).getD false || s.saved.any fun x => awayKey x.thread == slot && receives x.thread
    | _ => true
  { s with timers := s.timers.filter live }

/-- The saved owner of an endpoint, when it is saved inside RECV or RECVT. -/
def ownerReceives (e : Endpoint) (cid : Nat) (s : State) (c : Saved) : Bool :=
  e.slot == some (awayKey c.thread) && cidOf s c.core == cid && receives c.thread

/-- R303, R305: a message reaches the directory of a name. -/
def deliverMessage (s : State) (m : Message) : State :=
  match epFind s m.cid m.at_ with
  | none => bounce s m 5
  | some e =>
    match e.st with
    | .free => bounce s m 5
    | .exited => bounce s m 7
    | .moved => if m.hop < 4 then post s (.messageDelivery { m with at_ := e.stub, hop := m.hop + 1 }) else bounce s m 8
    | .placed =>
      if ringFree e && e.ovf.isEmpty then
        if msgAllowed s e m then wakeRecv (putLocal s m.at_ e m) else bounce s m 10
      else putOver s m.at_ e m
    | .unplaced => putOver s m.at_ e m
    | .swapped =>
      let s := putOver s m.at_ e m
      let hit := ownerReceives e m.cid s
      let cores := (s.saved.filter hit).map fun c => Event.slotGrant c.core
      postAll { tick s with saved := s.saved.map fun c => if hit c then wokenSaved s.nextTx c else c } cores

/-- The endpoints of a partition that a thread owns. -/
def ownedEps (s : State) (cid : Nat) (own : Endpoint → Bool) : List (Nat × Endpoint) :=
  s.dies.flatMap fun d => (d.2.eps.filter fun p => p.2.cid == cid && own p.2).map fun p =>
    (epName d.1 p.2.tag p.1, p.2)

/-- R287, R303: every endpoint that a slot's thread owns becomes EXITED, also one that waits for the thread's
identifier. -/
def exitEps (s : State) (cid slot swid : Nat) : State :=
  let own := fun (e : Endpoint) =>
    (e.slot == some slot && e.st == .placed) || (e.st == .unplaced && e.owner == swid)
  wakeRecv ((ownedEps s cid own).foldl (fun s p => setEp s p.1 { p.2 with st := .exited, slot := none }) s)

/-- R303: the endpoints of a thread that is saved are SWAPPED: they keep its key, since other threads may bear its
identifier (R326, R271). -/
def swapEps (s : State) (cid slot key : Nat) : State :=
  (ownedEps s cid fun e => e.slot == some slot && e.st == .placed).foldl
    (fun s p => setEp s p.1 { p.2 with st := .swapped, slot := some key }) s

/-- R303: endpoints are PLACED with their owner in a slot, and take in their overflow messages. -/
def placeEps (s : State) (cid slot : Nat) (own : Endpoint → Bool) : State :=
  wakeRecv ((ownedEps s cid own).foldl
    (fun s p => copyIn (setEp s p.1 { p.2 with st := .placed, slot := some slot }) p.1 cid p.2.ovf.length p.2.ovf.length) s)

end Sys2Proof.Machine
end

