-- ==== Sys2Proof/Machine/EngMem.lean ====
section
/-! DEFINITION. How the engines of a cluster reach memory (spec/08_order_engines.md R120, spec/16_matrix.md R267,
R279): reads and writes of a job's operands, their translation, the touches they make, and the page faults that stop
a job. -/

namespace Sys2Proof.Machine

/-- Why a job's step makes no progress now: it waits for a fill or a reply, or it has stopped on a page fault, each
with what that sets going in the state before the step, which is made anew later; or an access is refused or out of its
operand's segment. -/
inductive EngStop where
  | wait (f : State → State)
  | fault (f : State → State)
  | refused

/-- A step of a job. -/
abbrev EM := StateT State (Except EngStop)

/-- Whether an access lies within its operand's segment (R267). -/
def Operand.holds (o : Operand) (a : Int) (n : Nat) : Bool :=
  decide ((o.base : Int) ≤ a) && decide (a + n ≤ (o.base + o.limit : Int))

/-- An access that a job's engine makes. -/
def engineAccess (s : State) (k id u : Nat) (o : Operand) (a : Nat) (op : MemOp) : Access :=
  { tx := s.nextTx, agent := .engine k id u, core := k * 8 + ((jobAt s k id).map Job.core).getD 0, cid := (cluster s k).cid,
    kind := o.kind, tgt := 0, addr := a, op := op, scope := .th, xlated := false, phys := 0, home := none, cache := 0,
    common := false, tracked := false, handle := none }

/-- The job whose step is being made. -/
def theJob (k id : Nat) : EM Job := do
  match jobAt (← get) k id with
  | some j => return j
  | none => throw .refused

/-- R391, R279: an element of poisoned bytes is delivered as 0 and PSN is set. -/
def notePoison (k id : Nat) (x : List Byte × List Nat) : EM (List Byte × List Nat) := do
  if !x.2.isEmpty then modify fun s => modJob s k id fun j => { j with psn := true }
  return x

/-- Bytes with the poisoned ones replaced. (DEDUCED, log entry 18) -/
def cleaned (z : Byte) (x : List Byte × List Nat) : List Byte :=
  x.1.zipIdx.map fun b => if x.2.contains b.2 then z else b.1

/-- The unit of a cluster that makes a job's accesses, as a sender (R49, R120). -/
def jobNode (k : Nat) (j : Job) : Nat := if isMatrix j then nodeMatrix k else nodeCopy k

/-- A touch of an explicit place by an engine waits for a fill of what is absent, or goes on with the landed bytes that it
has been given (R61, R120). (DEDUCED, log entry 31) -/
def engineTouch (k id a n : Nat) : EM (Option Landed) := do
  let e := jobEvent k (← theJob k id)
  let s ← get
  let landed := landedFor s a e
  match touchWaits s a n landed (.event e) with
  | some w => throw (.wait fun s => waitTouch s (.event e) false w)
  | none => return landed

/-- A translation at the cluster port: of a TLB entry, or of a walk, which the job waits for (R370, R372, R279). -/
def engineXlate (k id : Nat) (r : Access) : EM TlbEntry := do
  let s ← get
  match tlbFind (cluster s k).tlb r.cid r.addr with
  | some e =>
    set (modCluster s k fun x => { x with tlb := tlbUse x.tlb e })
    return e
  | none =>
    let r := { r with agent := .engine k id noUnit }
    let asked := fun (q : Access) => q.agent == r.agent && pageOf q == pageOf r
    throw (.wait fun s => if portHas s k asked then s else atPort (tick s) r)

/-- Bytes of one line of global memory, as the home has them; the home is asked, and the job waits, where it must
first fill the line, recall a half, or serve what came before (R30, R39, R110, R119); an expander's answer is awaited (R386).
(DEDUCED, log entry 31) -/
def readGlob (k id : Nat) (o : Operand) (a n : Nat) : EM (List Byte × List Nat) := do
  let r := engineAccess (← get) k id 0 o a (.read n)
  let e ← engineXlate k id r
  if !permits (← get) e r then throw .refused
  let s ← get
  let q := translated e r
  let h := homeSlice q.home q.phys
  let ask : EM (List Byte × List Nat) := throw (.wait fun s => post (tick s) (.requestAtHome h q))
  match lineAt s h q.cid (q.phys / 128) with
  | some x =>
    if x.data.isSome && !keptOut x q && x.waiting.isEmpty && (halvesOf q.phys n).all fun b => halfState x b != 2 then
      set (meet s q.phys n)
      return (lineBytes x q.phys n, badBytes s q.phys n)
    else ask
  | none =>
    let got := ((jobAt s k id).map Job.ext).getD []
    if q.cache ≠ 2 then ask
    else if (channelOf (q.phys / 128)).isSome then
      set (meet (countAt s q.cid (q.phys / 128)) q.phys n)
      return (msBytes s q.cid q.phys n, badBytes s q.phys n)
    else match got.find? fun x => x.phys == q.phys && x.bytes.length == n with
      | some x => return (x.bytes, x.bad)
      | none => if asked s k id q then throw (.wait fun s => s) else ask
where
  /-- Whether a job's read of the CXL tier is on its way already. -/
  asked (s : State) (k id : Nat) (q : Access) : Bool :=
    s.due.any fun e => match e with
      | .requestAtHome _ r => r.agent == .engine k id 0 && r.phys == q.phys && r.op == q.op
      | .expanderRead _ r _ _ => r.agent == .engine k id 0 && r.phys == q.phys && r.op == q.op
      | _ => false

/-- A range cut at line boundaries: addresses and lengths. -/
def linePieces : Nat → Nat → Nat → List (Nat × Nat)
  | 0, _, _ => []
  | fuel + 1, a, n =>
    let m := Nat.min n (128 - a % 128)
    if n = 0 then [] else (a, m) :: linePieces fuel (a + m) (n - m)

/-- The lines of a range of global memory read one after another, in one step of the job: R121 leaves unspecified what a
job makes of operands that are written while it runs. -/
def readGlobs (k id : Nat) (o : Operand) : List (Nat × Nat) → EM (List Byte × List Nat)
  | [] => return ([], [])
  | (a, n) :: rest => do
    let x ← readGlob k id o a n
    let y ← readGlobs k id o rest
    return (x.1 ++ y.1, x.2 ++ y.2.map fun i => i + n)

/-- A read of a job's operand, as core c of the cluster sees it (R253): the newest bytes, and which are poisoned.
(DEDUCED, log entry 31) -/
def engineFetch (k id c : Nat) (o : Operand) (a : Int) (n : Nat) : EM (List Byte × List Nat) := do
  if !o.holds a n then throw .refused
  let a := a.toNat
  match o.kind with
  | .glob => notePoison k id (← readGlobs k id o (linePieces (n / 128 + 2) a n))
  | kd =>
    let p := place c kd 0 a
    let landed ← engineTouch k id p n
    let s ← get
    set (noteReads s p n)
    notePoison k id (readLanded s landed p n, badBytes (takePoison s p n) p n)

/-- A read whose elements are bytes, or words of them that poison covers whole; `whole` says that the bytes are one
element. (R279) (DEDUCED, log entry 31) -/
def engineRead (k id c : Nat) (o : Operand) (a : Int) (n : Nat) (whole : Bool) : EM (List Byte) := do
  let x ← engineFetch k id c o a n
  return if whole && !x.2.isEmpty then x.1.map fun _ => 0 else cleaned 0 x

/-- A doubleword of a job's operand. -/
def engineWord (k id c : Nat) (o : Operand) (a : Int) : EM Word := do
  return word (leNat (← engineRead k id c o a 8 true))

/-- An engine write of bytes of one line, sent or performed; its acknowledgement is awaited (R120, R122). -/
def engineWrite (k id c u : Nat) (o : Operand) (op : MemOp) (lo : Nat) (bytes : List Nat) : EM Unit := do
  let mark := fun (s : State) => modJob s k id fun j => { j with unacked := j.unacked ++ [u] }
  match o.kind with
  | .glob => modify fun s => atPort (tick (mark s)) (engineAccess s k id u o lo op)
  | .chip => modify fun s => post (tick (mark s)) (.chipScratchpadAccess (engineAccess s k id u o lo op))
  | kd =>
    for a in bytes do
      let _ ← engineTouch k id (place c kd 0 a) 1
    let j ← theJob k id
    let p := place c kd 0 lo
    modify fun s => performAt (tick (mark s)) (jobNode k j) p (landedFor s p (jobEvent k j)) (engineAccess s k id u o lo op)

end Sys2Proof.Machine
end

