-- ==== Sys2Proof/Machine/Engine.lean ====
section
/-! DEFINITION. Jobs of a cluster (spec/16_matrix.md R258 to R266): looking them up, ending them, and their
reports (spec/08_order_engines.md R122). -/

namespace Sys2Proof.Machine

/-- The flags and outcome of a job as STAT (R262). -/
def jobStat (j : Job) (out : Nat) : Nat :=
  out * 32 + j.fe.toNat * 16 + j.sat.toNat * 8 + j.hk.toNat * 4 + j.psn.toNat * 2

/-- A job's report as an inbox entry (R186, R262). -/
def reportWord (j : Job) : Word :=
  word (2 ^ 60 + jobUnit j * 2 ^ 56 + jobStat j j.out * 2 ^ 48 + j.id)

/-- Whether a drain buffer of the cluster holds a row of a job (R271). -/
def rowsHeld (s : State) (k id : Nat) : Bool :=
  (List.range 8).any fun i => (core s (k * 8 + i)).drain.any fun r => r.job == id

/-- Whether a job's flotilla is suspended by a tenant change, or being handed over (R361). -/
def jobHeld (s : State) (j : Job) : Bool := flotillaHeld s j.flotilla

/-- What stands in the place of an operand that a command does not use: it holds no address. -/
def noOperand : Operand := { kind := .null, tgt := 0, addr := 0, base := 0, limit := 0 }
/-- An operand of a job by its place: AS, WS of MT.CTX; A, B, SAVE of MT.TERN and MT.BOOTH; PR, SRC, DST, DSC of a copy
or domain command (R267, R268, R274, R280). -/
def jobOp (j : Job) (i : Nat) : Operand := j.ops.getD i noOperand

/-- Whether a copy writes its progress record when it stops short: PRV (R274). -/
def hasPrv (j : Job) : Bool := jobUnit j == 1 && bitOf j.c0 8

/-- The progress record: P and M (R278). Units beyond the mask's 512 bits have no bit. -/
def recordBytes (j : Job) : List Byte :=
  let m := (List.range 512).foldl (fun m b => if j.mask.contains (65536 * j.step + b) then m + 2 ^ b else m) 0
  leBytes 8 j.step ++ leBytes 64 m

/-- R278: the progress record of a job that stopped short is written; a record that cannot be written is left out.
(DEDUCED, log entry 29) -/
def writeRecord (s : State) (k id : Nat) (j : Job) : State :=
  let pr := jobOp j 0
  let bs := recordBytes j
  let act : EM Unit := do
    for p in (linePieces 3 pr.addr 72).zipIdx do
      let cells := cellsAt p.1.1 ((bs.drop (p.1.1 - pr.addr)).take p.1.2)
      engineWrite k id (k * 8 + j.core) (2 ^ 40 + p.2) pr (.write cells) p.1.1 (cells.map Prod.fst)
  match act (modJob s k id fun j => { j with recorded := true }) with
  | .ok (_, s') => leaveTouch s' k (.event (jobEvent k j)) none
  | .error (.wait f) => f s
  | .error _ => modJob s k id fun j => { j with recorded := true }

/-- R127: whether a job's arrival stream may still be given an element: one that is acknowledged, all before it delivered. -/
def deliverable (j : Job) : Bool := j.acked.any fun e => e.1 == j.delivered

/-- R218, R185: the arrival stream of a job that has ended becomes unbound once its last element is delivered: one that comes
after an element that was refused is never delivered (R127). -/
def endArrivals (s : State) (k id : Nat) : State :=
  if (jobAt s k id).all fun j => j.ended && j.unacked.isEmpty && !deliverable j then
    let s := modJob s k id fun j => { j with acked := [] }
    let mine := fun (c : Nat) (t : Thread) (q : Nat × Stream) =>
      clusterOf c == k && q.2.kind == .arrival && q.2.job == id && (t.handler.map Prod.fst) != some id
    let drop := fun (c : Nat) (t : Thread) => { t with streams := t.streams.filter fun q => !mine c t q }
    { s with
      threads := s.threads.map fun p => (p.1, drop (coreOf p.1) p.2)
      saved := s.saved.map fun x => { x with thread := drop x.core x.thread } }
  else s

/-- The jobs of a cluster that wait for their engine try to be taken, and stopped ones to be restored (R258, R273). -/
def kickEngine (s : State) (k : Nat) : State :=
  let waits := fun (j : Job) => !j.ended && (j.st == .queued || j.st == .gathering || (j.st == .stopped && j.preempted))
  postAll s ((((cluster s k).jobs.filter waits).map (jobEvent k)).filter fun e => !s.due.contains e)

/-- R122, R278, R361: a job that makes no further step reports once its writes are acknowledged, its host-done
replies have come and its rows are done; before that, a copy that stopped short writes its progress record, unless it has
not yet read the record from which it was to resume, which stands. Its place is then free for another job (R258).
(DEDUCED, log entry 29) -/
def finishJob (s : State) (k id : Nat) : State :=
  let s := endArrivals s k id
  match jobAt s k id with
  | none => s
  | some j =>
    if j.ended && j.st != .reported && j.unacked.isEmpty && j.hp = 0 && !rowsHeld s k id then
      if hasPrv j && j.out != 0 && !j.recorded && (j.resumed || !bitOf j.c0 9) then writeRecord s k id j
      else if jobHeld s j then s
      else
        let s := modJob s k id fun j => { j with st := .reported }
        kickEngine (post s (.inboxDelivery (k * 8 + j.core) (reportWord j))) k
    else s

/-- Whether a gang job waits for members or for its turn (R258). -/
def beforeStart (j : Job) : Bool := j.st == .queued || j.st == .gathering

/-- The waits in MGANG for a job end with a code: 0 started, 1 cancelled (R265). `p` picks the members' cores. -/
def completeGang (s : State) (k id code : Nat) (p : Nat → Bool) : State :=
  completeWaits s fun c _ w => match w with
    | .mgang d _ (some i) => if i == id && clusterOf c == k && p c then some [(d.toNat, word (code * 2 ^ 56 + id))] else none
    | _ => none

/-- The reserved slots of a job that has ended are freed on each core where no row of it waits for one (R264, R265). -/
def freeSlots (s : State) (k id : Nat) : State :=
  let drop := fun (s : State) (i : Nat) =>
    let c := k * 8 + i
    let x := core s c
    let idle := fun (r : Reserved) => r.job == id && !(thr s r.slot).isSome
    if x.reserved.any idle && !x.drain.any fun r => r.job == id && !r.started then
      post (modCore s c fun x => { x with reserved := x.reserved.filter fun r => !idle r }) (.slotGrant c)
    else s
  (List.range 8).foldl drop s

/-- A job's members lose their held sets: at a FAULT or a cancellation (R264). (DEDUCED, log entry 30) -/
def loseHeld (s : State) (k : Nat) (j : Job) : State :=
  (jobMembers j).foldl (fun s i => modCore s (k * 8 + i) fun x => { x with held := { x.held with hv := false } }) s

/-- The units of a job's writes that stopped on a page fault: they are not made once the job has stopped for good. -/
def parkedUnits (j : Job) : List Nat :=
  j.parked.filterMap fun r => match r.op, r.agent with
    | .read _, _ => none
    | _, .engine _ _ u => some u
    | _, _ => none

/-- A job with the units of its parked writes no longer awaited. (DEDUCED, log entry 29) -/
def dropParked (j : Job) : Job :=
  let us := parkedUnits j
  { j with parked := [], unacked := us.foldl List.erase j.unacked, lost := j.lost ++ us, flight := j.flight.filter fun f => !us.contains f.1 }

/-- A job stops with an outcome (R262): the waits for its start end, its reserved handler slots are freed, and it
reports by R122. A FAULT loses the held sets of its members. (DEDUCED, log entry 30) -/
def endJob (s : State) (k id out : Nat) : State :=
  match jobAt s k id with
  | none => s
  | some j =>
    if j.ended then s
    else
      let s := if out = 2 then loseHeld s k j else s
      let s := completeGang s k id (if beforeStart j && out = 1 then 1 else 0) fun _ => true
      let s := modJob s k id fun j => { dropParked j with
        ended := true, out := out, st := .running, recorded := j.recorded || beforeStart j || out == 0 }
      kickEngine (finishJob (freeSlots (dropTimer s (.jobAged k id)) k id) k id) k

/-- A step of a job made whole, what expanders have answered for it used up (R386), or what keeps it from being made; a step
that waits for a fill no more leaves its place among the touches (R61). -/
def runJob (s : State) (k id : Nat) (act : EM Unit) : State :=
  let j := jobAt s k id
  let leave := fun (s : State) => match j with
    | some j => leaveTouch s k (.event (jobEvent k j)) none
    | none => s
  match act s with
  | .ok (_, s') => leave (modJob s' k id fun q => { q with ext := [] })
  | .error (.wait f) => f s
  | .error (.fault f) => leave (f s)
  | .error .refused => leave (endJob s k id 2)

/-- A job whose report has been taken is forgotten, once its arrival stream has taken its elements. -/
def forgetJob (s : State) (k id : Nat) : State :=
  modCluster s k fun x => { x with jobs := x.jobs.filter fun j => !(j.id == id && j.taken && (!j.bound || j.acked.isEmpty)) }

/-- A job's report has been taken (R186, R263). (DEDUCED, log entry 30) -/
def takeReport (s : State) (c id : Nat) : State :=
  let k := clusterOf c
  match jobAt s k id with
  | some j =>
    if j.st = .reported && k * 8 + j.core = c then forgetJob (modJob s k id fun j => { j with taken := true }) k id else s
  | none => s

/-- Whether a core has a job in any state but UNKNOWN (R262). -/
def knownJob (s : State) (c id : Nat) : Option Job :=
  (jobAt s (clusterOf c) id).filter fun j => clusterOf c * 8 + j.core == c && !j.taken

/-- The state code of a status word (R262). -/
def stateCode (j : Job) : Nat :=
  match j.st with
  | .queued => 0
  | .gathering => 1
  | .running => 2
  | .stopped => 3
  | .reported => 4

/-- The progress that a status word shows (R262). -/
def jobProg (j : Job) : Nat := if jobUnit j = 2 then 0 else j.step

/-- The status word of a job at a core (R262); UNKNOWN where the core has none. -/
def jobStatus (s : State) (c id : Nat) : Word :=
  match knownJob s c id with
  | none => word (5 * 2 ^ 61 + id)
  | some j =>
    word (stateCode j * 2 ^ 61 + jobStat j (if j.st = .reported then j.out else 0) * 2 ^ 53 + jobProg j % 2 ^ 32 * 2 ^ 16 + id)

/-- A report that stands in an inbox: KIND 1 and the job's number. -/
def isReport (id : Nat) (e : Word) : Bool := fld e 63 60 == 1 && fld e 15 0 == id

/-- R186, R263: the waits for a job's report end: those that wait for a job the core no longer has return
UNKNOWN. -/
def wakeUnknown (s : State) : State :=
  let s0 := s
  completeWaits s fun c _ w => match w with
    | .jwait d id => if (knownJob s0 c id).isNone then some [(d.toNat, jobStatus s0 c id)] else none
    | _ => none

/-- R271: a drain buffer has a free row, or a core a free slot: the drains and handlers that waited go on. -/
def drainMore (s : State) (c : Nat) : State :=
  let k := clusterOf c
  let ds := (cluster s k).jobs.filter fun j => j.draining && !j.ended && (jobMembers j).contains (c % 8)
  post (postAll s (ds.map fun j => .rowDrain k j.id (c % 8))) (.rowHandlerStart c)

/-- R128, R266: a row handler has ended: its drain-buffer row frees, and the row counts as done. -/
def handlerDone (s : State) (slot job row : Nat) (hk : Bool) : State :=
  let c := coreOf slot
  let k := clusterOf c
  let s := modCore s c fun x => { x with drain := x.drain.filter fun r => !(r.job == job && r.x0 == row) }
  let s := modJob s k job fun j => { j with hk := j.hk || hk }
  if ((jobAt s k job).map fun j => j.ended).getD true then
    let left := (jobAt s k job).isNone
    let drop := fun (x : Core) => { x with reserved := x.reserved.filter fun r => !(r.slot == slot && left) }
    finishJob (freeSlots (drainMore (modCore s c drop) c) k job) k job
  else drainMore s c

end Sys2Proof.Machine
end

