-- ==== Sys2Proof/Machine/End.lean ====
section
/-! DEFINITION. The end of a thread (spec/11_threads.md R175, spec/18_isa_tasks.md R287): everything that EXIT,
termination, RDONE and the end of an activation have in common. -/

namespace Sys2Proof.Machine

/-- What a slot's thread that ends leaves in its core's store buffer and journal is known to be of a thread that is gone
(R87, R211). -/
def markGone (s : State) (slot : Nat) : State :=
  modCore s (coreOf slot) fun x => { x with
    sb := x.sb.map fun e => if e.slot == slot then { e with gone := true } else e
    journal := x.journal.map fun j => if j.2.slot == slot then (j.1, { j.2 with gone := true }) else j }

/-- R98, R107: the die-local atomics of a thread that ends, whose results have not returned, go on holding its core's
stores; the host-dones that it is owed are still to come (R115). -/
def keepAtoms (s : State) (slot : Nat) (t : Thread) : State :=
  let out := (t.outs.filter fun o => o.atom && o.dieLocal && !allHere o).flatMap fun o => o.pieces.map fun p => p.acc.tx
  let sent := out.filter fun x => !t.parked.any fun r => r.tx == x
  modCore s (coreOf slot) fun x => { x with goneAtoms := x.goneAtoms ++ sent, goneOwed := x.goneOwed ++ t.hostPending }

/-- Held write-stream elements of a thread that ends stay buffered stores: they enter the buffer as entries free, in push
order (R87, R185). (DEDUCED, log entry 20) -/
def flushHeld (s : State) (slot : Nat) : State :=
  match thr s slot with
  | none => s
  | some t =>
    let es := t.streams.flatMap fun q => q.2.held.map fun h => { heldEntry slot t h with gone := true }
    if es.isEmpty then s
    else
      let s := setThr s slot { t with streams := t.streams.map fun q => (q.1, { q.2 with held := [] }) }
      feedHeld (modCore s (coreOf slot) fun x => { x with leftOver := sortBy SbEntry.tx (x.leftOver ++ es) }) (coreOf slot)

/-- The arrival streams of a thread of a cluster unbound from their jobs. -/
def unbindAll (s : State) (k : Nat) (t : Thread) : State :=
  t.streams.foldl (fun s q =>
    if q.2.kind = .arrival then forgetJob (modJob s k q.2.job fun j => { j with bound := false }) k q.2.job else s) s

/-- How many threads of a flotilla there are, resident or saved (R345). -/
def threadCount (s : State) (f : Nat) : Nat :=
  (s.threads.filter fun p => p.2.flotilla == f).length + (s.saved.filter fun c => c.thread.flotilla == f).length

/-- R345: a flotilla whose thread count has come to 0 retires. -/
def threadGone (s : State) (f : Nat) : State := if threadCount s f = 0 then post s (.flotillaRetirement f) else s

/-- R346: a termination is noted for a flotilla's status record. -/
def markTerm (s : State) (f : Nat) : State :=
  match find s.flotillas f with
  | some x => { s with flotillas := put s.flotillas f { x with term := true } }
  | none => s

/-- R287: a thread ends: its groups, endpoints, frames, cursors, streams and row; then its slot is EMPTY. `term`
marks a termination (R352). (DEDUCED, log entry 20) An arrival at a sluice that it has made stays counted.
(DESIGN CHOICE, log entry 51) -/
def endThread (s : State) (slot : Nat) (term : Bool) : State :=
  match thr s slot with
  | none => s
  | some t =>
    let c := coreOf slot
    let s := leaveGroups s t
    let s := exitEps s (cidOf s c) slot t.swid
    let s := leaveTables s slot
    let s := unbindAll (flushHeld (keepAtoms (markGone s slot) slot t) slot) (clusterOf c) t
    let s := delThr (leaveTouch s (clusterOf c) (.slot slot) none) slot
    let s := modCore s c fun x => { x with ibWait := x.ibWait.filter fun w => w != slot }
    let s := { s with timers := s.timers.filter fun e => e != .sleepLimit slot && e != .recvtLimit slot }
    let s := match t.handler with
      | some (job, row) => handlerDone s slot job row term
      | none => s
    let s := if term then markTerm s t.flotilla else s
    threadGone (post s (.slotGrant c)) t.flotilla

/-- R264, R391: the end of a saved thread as EXIT or a termination would end it: it holds no slot, and has nothing in its
core's buffer. -/
def endSaved (s : State) (x : Saved) (term : Bool) : State :=
  let t := x.thread
  let same := fun (y : Saved) => y.core == x.core && y.slot == x.slot && y.thread.swid == t.swid && y.thread.handler == t.handler
  let s := leaveGroups { s with saved := s.saved.filter fun y => !same y } t
  let s := wakeRecv <| (ownedEps s (cidOf s x.core) fun e =>
      (e.st == .swapped && e.slot == some (awayKey t)) || (e.st == .unplaced && e.owner == t.swid)).foldl
    (fun s p => setEp s p.1 { p.2 with st := .exited, slot := none }) s
  let alive := fun (s : State) (f : Frame) => ((groupOfDfn (tbl s f.die) f.entry).bind (find (tbl s f.die).groups)).isSome
  let s := t.frames.foldl (fun s f => if alive s f then failFrames s [f] else s) s
  let s := unbindAll (releaseCursors s t.cursors) (clusterOf x.core) t
  let s := { s with timers := s.timers.filter fun e => e != .sleepLimit (awayKey t) && e != .recvtLimit (awayKey t) }
  let s := match t.handler with
    | some (job, row) => handlerDone s x.slot job row term
    | none => s
  threadGone (if term then markTerm s t.flotilla else s) t.flotilla

end Sys2Proof.Machine
end

