-- ==== Sys2Proof/Machine/Ops.lean ====
section
/-! DEFINITION. The named operations that instructions are made of: issuing, waiting and trapping
(spec/11_threads.md R183, spec/23_traps.md R351 to R355), loads and stores in program order
(spec/05_order_thread_core.md R80 to R94), and the waits of releases, acquires and atomics (R101 to R113). -/

namespace Sys2Proof.Machine

/-- What an instruction answers. -/
abbrev Out := Host.Outcome State Fault Refusal

/-! ### Traps -/

/-- The code of a level (R354). -/
def levelCode : Level → Nat
  | .u => 0
  | .s => 1
  | .m => 2

/-- The level of a code; 3 is illegal and never asked. -/
def levelOf (n : Nat) : Level := if n = 0 then .u else if n = 1 then .s else .m

/-- A thread out of the inbox's line. -/
def leaveIb (s : State) (slot : Nat) : State :=
  modCore s (coreOf slot) fun x => { x with ibWait := x.ibWait.filter fun w => w != slot }

/-- A thread's state once it has entered its handler (R351); what its next instruction has popped before it parked waits
for that instruction (R155). -/
def trapped (t : Thread) (mvec : Word) (cause : Nat) (asy : Bool) (tval tadr tpc : Word) : Thread :=
  { t with
    tpc := tpc
    cause := word (cause + if asy then 256 else 0)
    tval := tval
    tadr := tadr
    pp := t.level
    inh := true
    level := if t.level = .m then .m else .s
    pc := if t.level = .m then mvec else t.tvec
    status := .ready
    blk := []
    landed := none
    kept := []
    pops := []
    aside := if t.kept.isEmpty then t.aside else (tpc, t.level, t.kept) :: t.aside }

/-- R351, R352: a thread takes a trap; one due while INH = 1 is a double trap, which ends the thread with a
DOUBLE record. -/
def enterTrap (s : State) (slot cause : Nat) (asy : Bool) (tval tadr tpc : Word) : State :=
  match thr s slot with
  | none => s
  | some t =>
    if t.inh then
      let r := faultRec 4 0 (tpc.toNat % 2 ^ 52) t.swid 0 slot 0 0 cause 0
      raiseFault (endThread s slot true) (cidOf s (coreOf slot)) r
    else
      let s := setThr s slot (trapped t (core s (coreOf slot)).mvec cause asy tval tadr tpc)
      leaveIb (leaveTouch s (clusterOf (coreOf slot)) (.slot slot) none) slot

/-- R353: the oldest pending asynchronous trap is taken, while INH = 0, before the thread's next instruction; the accesses
that waited for that are sent again. -/
def deliverAsync (s : State) (slot : Nat) : State :=
  match thr s slot with
  | none => s
  | some t =>
    match t.pend with
    | [] => resend s slot false
    | a :: rest =>
      if mayTrap t then
        resend (enterTrap (setThr s slot { t with pend := rest }) slot a.cause true a.tval a.tadr t.pc) slot false
      else s

/-- R355: what ERET does to a thread: level, INH and pc; the set of queues that a return to a lower level
leaves is discarded (R86). An instruction that it comes back to finds what it had popped (R155). -/
def returned (t : Thread) : Thread :=
  let lower := decide (levelCode t.pp < levelCode t.level)
  let drop := fun (o : Outst) => match o.dest with
    | .ld l _ _ => if l = t.level then { o with dest := .discard } else o
    | _ => o
  let t' := if lower then setQueues { t with outs := t.outs.map drop } t.level Queues.empty else t
  let mine := fun (a : Word × Level × List (Reg × Word)) => a.1 == t.tpc && a.2.1 == t.pp
  let back := t.aside.find? mine
  { t' with level := t.pp, inh := false, pc := t.tpc, status := .ready, blk := [], landed := none,
            kept := (back.map fun a => a.2.2).getD [], pops := [],
            aside := match back with
              | some a => t.aside.erase a
              | none => t.aside }

/-! ### Issuing -/

/-- Why an instruction does not take effect now: an exact trap with its TVAL and TADR, or a wait, with what
the waiting itself sets going. -/
inductive Stop where
  | trap (cause : Nat) (tval tadr : Word)
  | wait (w : Wait) (f : State → State)

/-- An instruction's effect on the state, or why there is none. -/
abbrev Act := StateT State (Except Stop)

/-- Where the thread goes after an instruction: on, to an address, or nowhere (it waits inside it, or its
state is already that after a trap, a return or its end). -/
inductive Flow where
  | seq
  | goto (pc : Word)
  | stay
  deriving DecidableEq, Repr

/-- An exact trap (R21). -/
def trap {α : Type} (cause : Nat) (tval : Word) : Act α := throw (.trap cause tval 0)
/-- The thread whose instruction is issued. -/
def blank : Thread :=
  { pc := 0, level := .u, swid := 0, regs := [], rbase := 0, lbase := 0, lsz := 0, vp := 0, segs := [],
    qu := Queues.empty, qs := Queues.empty, qm := Queues.empty, streams := [], frames := [], cursors := [],
    hostPending := [], tvec := 0, tpc := 0, cause := 0, tval := 0, tadr := 0, pp := .u, inh := false, frc := false,
    spt := 0, vrm := 0, jsel := 0, wakeBit := false, groups := [], status := .ready, saving := none, outs := [],
    results := [], pend := [], parked := [], resume := none, blk := [], landed := none, stalled := [],
    kept := [], pops := [], handler := none, flotilla := 0, seqno := 0 }

/-- The issuing thread in a state. -/
def self (s : State) : Thread := (thr s s.cur).getD blank
/-- The issuing thread changed. -/
def modSelf (s : State) (f : Thread → Thread) : State := modThr s s.cur f

/-- A waiting instruction leaves word of the values that it has popped so far: the pops take place when it issues, or if it
parks (R155). `s` is the state that the attempt has come to. -/
def keepNote (s s0 : State) : State :=
  if (self s).pops.isEmpty && (self s0).pops.isEmpty then s0
  else modSelf s0 fun t => { t with pops := (self s).pops.drop t.pops.length }

/-- A wait before the instruction takes effect, which first sets something going (R183). -/
def waitOn {α : Type} (w : Wait) (f : State → State) : Act α := do
  let s ← get
  throw (.wait w fun s0 => keepNote s (f s0))

/-- A wait on a condition that an event elsewhere brings about (R183). -/
def hold {α : Type} : Act α := waitOn .retry id
/-- A wait that first sets something going. -/
def holdWith {α : Type} (f : State → State) : Act α := waitOn .retry f

/-- Whether an access is one that a core itself has sent. -/
def sentBy (c : Nat) (r : Access) : Bool :=
  match r.agent with
  | .host => false
  | .scheduler => false
  | .device _ => false
  | .engine _ _ _ => false
  | .tow _ _ => false
  | .load slot => coreOf slot == c
  | _ => r.core == c

/-- R48, R49: whether a request of a core is on its way to a slice of a property. -/
def requestsOut (s : State) (c : Nat) (p : Nat → Bool) : Bool := s.due.any fun e => match e with
  | .requestAtHome h r => sentBy c r && p h
  | .writeBackMessage h r => sentBy c r && p h
  | .chipScratchpadAccess r => sentBy c r && p (chipSlice r.addr)
  | .stepMessage h _ slot => slot.map coreOf == some c && p h
  | _ => false

/-- R48, R49: a request that is performed at slices of a property comes there after the core's earlier requests to them. The
thread waits in its instruction until it has been answered (R183), so it may act at the moment of its issue.
(DEDUCED, log entry 42) -/
def sendGate (p : Nat → Bool) : Act Unit := do
  let s ← get
  if requestsOut s (coreOf s.cur) p then hold

/-- The issuing thread. -/
def me : Act Thread := do return self (← get)
/-- The issuing thread changed. -/
def setMe (f : Thread → Thread) : Act Unit := modify fun s => modSelf s f

/-- Whether a thread may issue: READY, or waiting to issue the same instruction again; a slot in SAVING issues
nothing (R175, R359). -/
def mayIssue (t : Thread) : Bool :=
  t.saving.isNone && match t.status with
    | .ready => true
    | .wait (.release _ _) => true
    | w => retries w

/-- R183: a thread enters a wait before its instruction, keeping its place among those that wait. -/
def waiting (s : State) (w : Wait) : State :=
  match thr s s.cur with
  | none => s
  | some t =>
    if t.status = .ready then
      { setThr s s.cur { t with status := .wait w, seqno := s.nextTx } with nextTx := s.nextTx + 1 }
    else setThr s s.cur { t with status := .wait w }

/-- The issuing thread goes on at an address, or waits until its access has a walk or a miss-status entry (R37, R183); it
has no touch that waits any more. -/
def goOn (s : State) (pc : Word) : State :=
  let st := if awaitsEntry s s.cur then Status.wait .entry else .ready
  let s := modSelf s fun t => { t with pc := pc, status := st, blk := [], landed := none, kept := [], pops := [] }
  leaveTouch s (clusterOf (coreOf s.cur)) (.slot s.cur) none

/-- Whether a thread waits inside an instruction that has issued (R183). -/
def inIssued (t : Thread) : Bool :=
  match t.status with
  | .wait w => !retries (.wait w)
  | _ => false

/-- The thread after an instruction that has taken effect. -/
def finish (s : State) : Flow → State
  | .seq => goOn s ((self s).pc + 4)
  | .goto pc => goOn s pc
  -- what the instruction has popped is popped: it does not issue again
  | .stay => modSelf s fun t => { t with pops := [], kept := if inIssued t then [] else t.kept }

/-- An instruction issues for the current slot's thread: its effect, its exact trap, or its wait. -/
def issue (a : Act Flow) (s : State) : Out :=
  match thr s s.cur with
  | none => .next s
  | some t =>
    if mayIssue t then
      match a s with
      | .ok (f, s') => .next (finish s' f)
      | .error (.trap c v ta) => .next (enterTrap s s.cur c false v ta t.pc)
      | .error (.wait w f) => .next (waiting (f s) w)
    else .next s

/-! ### Pending registers (R182, R183) -/

/-- Whether a destination is a window register. -/
def intoX (r : Nat) : Dest → Bool
  | .x q _ _ => q == r
  | _ => false

/-- Whether a destination is a vector register. -/
def intoV (n : Nat) : Dest → Bool
  | .v m => m == n
  | _ => false

/-- Whether a window register awaits a load, an atomic or a division, or the trap of one that was refused (R208). -/
def busyX (t : Thread) (r : Nat) : Bool :=
  (t.outs.any fun o => intoX r o.dest) || (t.results.any fun p => (p.reg.map Prod.fst) == some r) || t.pend.any fun a => intoX r a.dest

/-- Whether a vector register awaits a load or a late result, or the trap of a load that was refused (R208). -/
def busyV (t : Thread) (n : Nat) : Bool :=
  (t.outs.any fun o => intoV n o.dest) || (t.results.any fun p => (p.vec.map Prod.fst) == some n) || t.pend.any fun a => intoV n a.dest

/-- R182: at most 8 loads and atomics to registers are outstanding. (DEDUCED, log entry 43) -/
def outCount (t : Thread) : Nat :=
  (t.outs.filter fun o => match o.dest with
    | .x _ _ _ => true
    | .v _ => true
    | .discard => true
    | _ => false).length

/-- R101: accesses wait behind an acquire that has not been performed. -/
def afterAcquire : Act Unit := do
  let t ← me
  if t.outs.any fun o => o.acq then hold

/-! ### Touches of explicit levels (R61, R391) -/

/-- The bytes of a range as a thread may read them (R61). -/
def readPlace (s : State) (t : Thread) (a n : Nat) : List Byte := readLanded s t.landed a n

/-- Whether a range holds poison, or absent words of a poisoned granule (R391). -/
def readsPoison (s : State) (a n : Nat) : Bool := poisoned s a n || !(illWords s a n).isEmpty

/-- R61: a touch waits for the fills of absent words, unless their data has landed for it, and for its turn. -/
def touchGate (a n : Nat) : Act Unit := do
  let s ← get
  match touchWaits s a n (self s).landed (.slot s.cur) with
  | none => pure ()
  | some w => waitOn (.touch w.1) fun s => waitTouch s (.slot s.cur) false w

/-- Landed data written under a store or atomic that touches a word which a probe kept out (R61). -/
def installLanded (s : State) (a n : Nat) : State := putLanded s (self s).landed a n

/-! ### Pending poison of the issuing thread (R353, R390, R391) -/

/-- POISON of a load becomes pending. -/
def pendPoison (s : State) (tval : Word) : State := pendTrap s s.cur 0x23 tval (self s).pc

/-- POISON of a store performed at issue: one record, the first kept. -/
def pendStorePoison (s : State) (tval : Word) : State :=
  let t := self s
  if t.pend.any fun a => a.store then s
  else post (modSelf s fun t => { t with pend := t.pend ++ [{ cause := 0x23, tval := tval, tadr := t.pc, store := true }] })
    (.asyncTrapDelivery s.cur)

/-! ### Loads (R80, R88, R207) -/

/-- One access of a load or store: where, how long, and the lanes it serves. -/
structure Ref where
  kind : Kind
  tgt : Nat
  addr : Nat
  size : Nat
  lanes : List (Nat × Nat × Word)
  deriving DecidableEq, Repr

/-- R88: what the issuing thread's own buffer says to a load. -/
def forward (s : State) (slot : Nat) (r : Ref) : Forward := forwardAt s slot r.kind r.tgt r.addr r.size

/-- An access of the issuing thread, not yet translated. -/
def access (s : State) (agent : Agent) (r : Ref) (op : MemOp) (sc : Scope) : Access :=
  { tx := s.nextTx, agent := agent, core := coreOf s.cur, cid := cidOf s (coreOf s.cur), kind := r.kind, tgt := r.tgt,
    addr := r.addr, op := op, scope := sc, xlated := false, phys := 0, home := none, cache := 0, common := false,
    tracked := false, handle := none, m := (self s).level == .m }

/-- R97: whether a location is die-local as far as the core knows before translation. -/
def refLocal (c : Nat) (r : Ref) : Bool :=
  match r.kind with
  | .chip => dieOfCluster (chipSlice r.addr) == dieOf c
  | .remc => dieOfCluster r.tgt == dieOf c
  | .glob => true
  | _ => false

/-- R97, R98: whether a location whose translation will not be asked for is die-local as far as the core knows. -/
def knownLocal (s : State) (c : Nat) (r : Ref) : Bool :=
  match r.kind with
  | .glob => ((tlbFind (cluster s (clusterOf c)).tlb (cidOf s c) r.addr).map fun e => e.home == some (dieOf c)).getD true
  | _ => refLocal c r

/-- The storage place of a lane of a vector register (R179). -/
def vPlace (c : Nat) (t : Thread) (n lane : Nat) : Nat := lanePlace c (lane * 2048 + (t.lbase + n) * 4)

/-- R237: whether a range meets a lane whose vector result the issuing thread awaits. -/
def laneBusy (s : State) (a n : Nat) : Bool :=
  let t := self s
  let c := coreOf s.cur
  (t.results.any fun r => match r.vec with
    | some (v, ls) => ls.any fun l => meets a n (vPlace c t v l.1) 4
    | none => false) ||
  t.outs.any fun o => match o.dest with
    | .v v => o.pieces.any fun p => p.lanes.any fun l => meets a n (vPlace c t v l.1) 4
    | _ => false

/-- R237: an access to an explicit level waits for the lanes of the thread's own pending vector results. -/
def laneGate (a n : Nat) : Act Unit := do
  if laneBusy (← get) a n then hold

/-- Whether a load is of bytes of an earlier vector load of the thread that has not got them all: that one may have to be
performed again as a whole, and must not read them later than this (R80, R246). -/
def vecPending (t : Thread) (r : Ref) : Bool :=
  t.outs.any fun o => isVec o && !allHere o && o.pieces.any fun p =>
    p.acc.kind == r.kind && p.acc.tgt == r.tgt &&
      match p.acc.op with
      | .read n => meets r.addr r.size p.acc.addr n
      | _ => false

/-- One piece of a load: read at once, forwarded, or sent. -/
def loadPiece (r : Ref) : Act Piece := do
  if atIssue r.kind then
    let s ← get
    let a := place (coreOf s.cur) r.kind r.tgt r.addr
    laneGate a r.size
    touchGate a r.size
    let t := self s
    let acc := access s (.load s.cur) r (.read r.size) .th
    let bs := readPlace s t a r.size
    let bad := readsPoison s a r.size
    set (tick (noteReads s a r.size))
    return { acc := acc, lanes := r.lanes, reply := some (if bad then .poison bs (List.range r.size) else .data bs), fixed := true }
  else
    let s ← get
    if vecPending (self s) r then hold
    let acc := access s (.load s.cur) r (.read r.size) .th
    match forward s s.cur r with
    | .blocked => hold
    | .bytes bs =>
      set (tick s)
      return { acc := acc, lanes := r.lanes, reply := some (.data bs), fixed := true, near := knownLocal s (coreOf s.cur) r }
    | .none =>
      set (tick s)
      return { acc := acc, lanes := r.lanes, reply := none, fixed := false, near := refLocal (coreOf s.cur) r }

/-- Every piece of a load, in order. -/
def loadPieces : List Ref → Act (List Piece)
  | [] => return []
  | r :: rs => do
    let p ← loadPiece r
    return p :: (← loadPieces rs)

/-- The queue place of a queue load (R83). -/
def placeLd (t : Thread) (o : Outst) : Thread :=
  match o.dest with
  | .ld l _ _ =>
    let q := queuesOf t l
    setQueues t l { q with ld := q.ld ++ [{ tx := o.tx, val := none }] }
  | .blk => { t with blk := t.blk ++ [{ tx := o.tx, val := none }] }
  | _ => t

/-- R182: at most 8 loads and atomics to registers are outstanding; a queue load or a stream's read takes no place
among them. -/
def loadGate (dest : Dest) : Act Unit := do
  afterAcquire
  let t ← me
  let reg := match dest with
    | .x _ _ _ => true
    | .v _ => true
    | .discard => true
    | _ => false
  if reg && decide (8 ≤ outCount t) then hold

/-- A load whose pieces have been read or are to be sent: its place among the outstanding ones, and its value as soon
as it may be delivered (R99, R182). -/
def sendLoad (dest : Dest) (va : Nat) (ps : List Piece) (acq : Bool) : Act Unit :=
  modify fun s =>
    let o : Outst :=
      { tx := s.nextTx, dest := dest, pc := (self s).pc, va := va, pieces := ps, atom := false,
        dieLocal := ps.any Piece.near, acq := acq }
    let s := tick (modSelf s fun t => placeLd { t with outs := t.outs ++ [o] } o)
    let s := (ps.filter fun p => p.reply.isNone).foldl (fun s p => send s p.acc) s
    deliverAll s s.cur

/-- R207: a load of the issuing thread: its pieces read or sent, its value delivered as soon as it may be. -/
def startLoad (dest : Dest) (va : Nat) (rs : List Ref) (acq : Bool) : Act Unit := do
  loadGate dest
  let ps ← loadPieces rs
  sendLoad dest va ps acq

/-! ### Stores (R84, R87, R185, R207) -/

/-- Whether a store would overtake an earlier load of the thread to one of its bytes (R80): a load some of whose parts have
not come may have to be performed again as a whole (R246). -/
def loadPending (t : Thread) (r : Ref) : Bool :=
  t.outs.any fun o => !allHere o && o.pieces.any fun p =>
    p.acc.kind == r.kind && p.acc.tgt == r.tgt &&
      match p.acc.op with
      | .read n => meets r.addr r.size p.acc.addr n
      | .atomic _ n _ _ => meets r.addr r.size p.acc.addr n
      | _ => false

/-- A store performed at issue (R78): the touch, the bytes, and POISON if its merge poisoned the granule. -/
def storeNow (r : Ref) (bs : List Byte) : Act Unit := do
  let s ← get
  let c := coreOf s.cur
  let a := place c r.kind r.tgt r.addr
  laneGate a r.size
  touchGate a r.size
  let p := storeAt (installLanded s a r.size) a bs
  let t := self s
  let s := if p.2 then
      pendStorePoison (mergeError p.1 a (structureOf a) t.swid s.cur (clusterOf c) (cidOf s c) (dieOf c)) (word r.addr)
    else p.1
  set s

/-- Whether the thread has write-stream elements held outside the buffer (R185). -/
def holds (t : Thread) : Bool := t.streams.any fun q => !q.2.held.isEmpty

/-- R87: stores that enter the buffer, one entry for each element of the list; those of one instruction wait until all of
them fit. (DESIGN CHOICE, log entry 45) -/
def bufferStores (es : List SbEntry) : Act Unit := do
  let s ← get
  let c := coreOf s.cur
  let t := self s
  if holds t || decide (32 < (core s c).sb.length + es.length) then hold
  set (enterBuffer s c (es.map fun e => { e with tx := s.nextTx, swid := t.swid, m := t.level == .m }))

/-- A scalar store of the low bytes of a value, performed or buffered (R78). -/
def storeScalar (r : Ref) (v : Word) : Act Unit := do
  afterAcquire
  if atIssue r.kind then storeNow r (leBytes r.size v.toNat)
  else
    let s ← get
    if loadPending (self s) r then hold
    bufferStores [{ slot := s.cur, kind := r.kind, tgt := r.tgt, words := [(r.addr, r.size, v)], flush := false }]

/-! ### Releases and fences (R92, R93, R102, R113) -/

/-- The thread's own entries of the store buffer, held elements included. -/
def ownBuffered (s : State) (slot : Nat) : Bool :=
  ((core s (coreOf slot)).sb.any fun e => e.slot == slot && !e.gone) || ((thr s slot).map holds).getD false

/-- Whether a journalled store awaits its acknowledgement. -/
def unackedEntry (j : JEntry) : Bool := !j.ref && j.code != 7

/-- The thread's own stores that are not acknowledged. -/
def ownUnacked (s : State) (slot : Nat) (p : JEntry → Bool) : Bool :=
  (core s (coreOf slot)).journal.any fun j => j.2.slot == slot && !j.2.gone && unackedEntry j.2 && p j.2

/-- R92: what a fence of thread scope waits for, among it the elements of read streams that are in flight.
(DESIGN CHOICE, log entry 45) -/
def doneTh (s : State) (slot : Nat) : Bool :=
  (((thr s slot).map fun t => t.outs.isEmpty).getD true) && !((thr s slot).map holds).getD false &&
    !((core s (coreOf slot)).sb.any fun e => e.slot == slot && !e.gone && e.kind == .remc) &&
    !ownUnacked s slot fun j => j.kind == .remc

/-- R93: what a fence of core scope waits for besides. -/
def doneCo (s : State) (slot : Nat) : Bool := doneTh s slot && !ownBuffered s slot

/-- The write-backs in flight once some words of a line are SENT again: those words are no longer theirs (R61). -/
def sentAgain (clus : Bool) (sl : Nat) (m : BitVec 32) (ws : List WbFlight) : List WbFlight :=
  ws.map fun w => if w.clus == clus && w.sline == sl then { w with mask := w.mask &&& ~~~ m } else w

/-- A write-back message in flight. -/
def wbFlight (tx bn : Nat) (clus : Bool) (sl : Nat) (m : BitVec 32) (tag : Option Nat) : WbFlight :=
  { tx := tx, bn := bn, clus := clus, sline := sl, mask := m, owner := tag }

/-- R65: every dirty word of a core's selected basins becomes SENT, and one write-back message leaves for each
line, awaited by the wait with a tag. -/
def writeBackLines (s : State) (c : Nat) (tag : Option Nat) (ls : List (Nat × Bool × Nat × BitVec 32)) : State :=
  ls.foldl (fun s l =>
    let bn := l.1
    let clus := l.2.1
    let sl := l.2.2.1
    let m := l.2.2.2
    match find (core s c).tags (tagKey clus sl), basin s c bn with
    | some t, some b =>
      let a := slinePlace c clus sl
      let va := basinVa b sl
      let cells := ((List.range 128).filter fun i => m.getLsbD (i / 4)).map fun i => (va + i, memByte s.mem (a + i))
      let ill := (List.range 32).filter fun w => m.getLsbD w && poisoned s (a + 4 * w) 4
      let s := setTag s c clus sl { t with sent := t.sent ||| m }
      let s := modCore s c fun x => { x with wbs := sentAgain clus sl m x.wbs ++ [wbFlight s.nextTx bn clus sl m tag] }
      let r : Access :=
        { tx := s.nextTx, agent := .writeBack c bn clus sl, core := c, cid := cidOf s c, kind := .glob, tgt := 0, addr := va,
          op := .write cells, scope := .th, xlated := false, phys := 0, home := none, cache := 0, common := false,
          tracked := false, handle := none, bad := ill }
      atPort (tick s) r
    | _, _ => s) s

/-- Whether write-backs that a wait awaits are in flight: those that its instruction sent, and for a release those that
were in flight when it first issued. -/
def awaitedWbs (s : State) (c tag : Nat) : Bool := (core s c).wbs.any fun w => w.owner == some tag || w.also.contains tag

/-- R104: whether global stores that a core had drained by a point of its order are not acknowledged: a thread may have read
a sibling's from the core's L1. -/
def drainedBefore (s : State) (c : Nat) (seq : BitVec 32) : Bool :=
  (core s c).journal.any fun j => j.2.kind == .glob && unackedEntry j.2 && decide ((seq - j.2.seq).toNat < 2 ^ 31)

/-- Whether a scope is the cluster's or wider. -/
def wideScope : Scope → Bool
  | .th => false
  | .co => false
  | _ => true

/-- What a release of cluster scope or wider still waits for besides write-backs (R102, R104, R113). -/
def doneWide (s : State) (slot : Nat) (seq : BitVec 32) (sc : Scope) : Bool :=
  doneCo s slot && !(ownUnacked s slot fun _ => true) && !drainedBefore s (coreOf slot) seq &&
    (sc != .sy || ((thr s slot).map fun t => t.hostPending.isEmpty).getD true)

/-- R65, R104: a release first issues: the core's DIRTY words become SENT, and it awaits them and those that are SENT
already. -/
def beginRelease (tag : Nat) (s : State) : State :=
  let c := coreOf s.cur
  let old := (core s c).wbs.map WbFlight.tx
  let s := modSelf { s with nextTx := max s.nextTx tag + 1 } fun t => { t with relTags := t.relTags ++ [tag] }
  let s := writeBackLines s c (some tag) (dirtyLines s c fun _ => true)
  modCore s c fun x => { x with wbs := x.wbs.map fun w => if old.contains w.tx then { w with also := w.also ++ [tag] } else w }

/-- Whether accesses of a thread itself are not performed: what they write may still make basin words of its core dirty
(R25, R102). -/
def ownPending (s : State) (slot : Nat) : Bool := !doneCo s slot || ownUnacked s slot fun _ => true

/-- R92, R93, R102, R113: the waits of a release or fence of a scope; once the thread's own accesses are performed, the
write-back of the core's basins among them (R65). -/
def release (sc : Scope) : Act Unit := do
  afterAcquire
  let s ← get
  let slot := s.cur
  let c := coreOf slot
  match sc with
  | .th => if doneTh s slot then pure () else hold
  | .co => if doneCo s slot then pure () else hold
  | _ =>
    match (self s).status with
    | .wait (.release seq tag) =>
      if doneWide s slot seq sc && !awaitedWbs s c tag then setMe fun t => { t with relTags := [] }
      else waitOn (.release seq tag) id
    | _ =>
      let x := core s c
      if doneWide s slot x.seq sc && x.wbs.isEmpty && (dirtyLines s c fun _ => true).isEmpty then pure ()
      else if ownPending s slot then hold
      else waitOn (.release x.seq s.nextTx) (beginRelease s.nextTx)

/-! ### Atomics (R90, R106, R107, R214) -/

/-- The waits of an atomic before it is performed (R90, R107). -/
def atomicGate (r : Ref) (sc : Scope) (ord : AOrd) : Act Unit := do
  afterAcquire
  if ord = .rel || ord = .ar then release sc
  if !atIssue r.kind then
    let s ← get
    let c := coreOf s.cur
    if ownBuffered s s.cur then hold
    let local_ := match r.kind with
      | .glob => match tlbFind (cluster s (clusterOf c)).tlb (cidOf s c) r.addr with
        | some e => e.home == some (dieOf c)
        | none => true
      | _ => refLocal c r
    if local_ && (!(unackedLocal s c).isEmpty || atomicOut s c || (self s).outs.any Outst.dieLocal) then hold

/-- R214: an atomic of the issuing thread: at issue, or sent to where it is performed. -/
def startAtomic (d : Option Nat) (r : Ref) (op : Aop) (p n : Word) (sc : Scope) (ord : AOrd) : Act Unit := do
  atomicGate r sc ord
  let t ← me
  let dest : Dest := match d with
    | some x => .x x r.size true
    | none => .discard
  if decide (8 ≤ outCount t) then hold
  if atIssue r.kind then
    let s ← get
    let a := place (coreOf s.cur) r.kind r.tgt r.addr
    touchGate a r.size
    let old := readPlace s t a r.size
    if readsPoison s a r.size then
      set (pendPoison (modSelf s fun t => wrReg t (d.getD 127) 0) (word r.addr))
    else
      let s := match atomicNew op (8 * r.size) (leNat old) p.toNat n.toNat with
        | some v => (storeAt (installLanded s a r.size) a (leBytes r.size v)).1
        | none => noteReads s a r.size
      set (modSelf s fun t => wrReg t (d.getD 127) (extend true r.size old))
  else
    if loadPending t r then hold
    let s ← get
    let acc := access s (.load s.cur) r (.atomic op r.size p n) sc
    let c := coreOf s.cur
    let piece : Piece := { acc := acc, lanes := [], reply := none, fixed := false, near := refLocal c r }
    let o : Outst :=
      { tx := s.nextTx + 1, dest := dest, pc := t.pc, va := r.addr, pieces := [piece], atom := true,
        dieLocal := refLocal c r, acq := ord = .acq || ord = .ar }
    set (send (modSelf (tick (tick s)) fun t => { t with outs := t.outs ++ [o] }) acc)

/-! ### Late results (R182, R198, R237) -/

/-- A division's or vector unit's result on its way. -/
def lateResult (reg : Option (Nat × Word)) (vec : Option (Nat × List (Nat × Lane))) : Act Unit :=
  modify fun s =>
    post (tick (modSelf s fun t => { t with results := t.results ++ [{ tx := s.nextTx, reg := reg, vec := vec }] }))
      (.operationResult s.cur s.nextTx)

/-! ### Waiting inside an instruction, and privilege -/

/-- The thread waits inside its instruction, which has issued (R183). -/
def inside (w : Wait) : Act Flow := do
  modify fun s => waitIn s s.cur w
  return .stay

/-- R350: the instruction needs S or M, or traps PRIVILEGE with its word. -/
def needS (i : Instr) : Act Unit := do
  let t ← me
  if t.level = .u then trap 0x03 (((encode i).getD 0).setWidth 64)

end Sys2Proof.Machine
end

