-- ==== Sys2Proof/Machine/Operands.lean ====
section
/-! DEFINITION. Every operand form: the window, stream and queue checks of R158 steps 5 and 6, reads and writes of
register fields (spec/10_encoding.md R154 to R157, spec/11_threads.md R184 to R186), register groups, and addresses
(spec/02_address_spaces.md R20 to R23). -/

namespace Sys2Proof.Machine

/-! ### What an instruction's fields name -/

/-- How an instruction uses a register field. -/
inductive Use where
  | src (r : Reg)                 -- read
  | dst (r : Reg)                 -- written
  | both (r : Reg)                -- read and written
  | grp (r : Reg) (n : Nat)       -- a register group (R156)
  | vec (n : Reg)                 -- a vector register (R157)
  deriving DecidableEq, Repr

/-- The number at which a use leaves the thread's windows, as TVAL (R158 step 5). -/
def outside (t : Thread) : Use → Option Word
  | .src r => if r.toNat < 112 ∧ t.regs.length ≤ r.toNat then some (word r.toNat) else none
  | .dst r => if r.toNat < 112 ∧ t.regs.length ≤ r.toNat then some (word r.toNat) else none
  | .both r => if r.toNat < 112 ∧ t.regs.length ≤ r.toNat then some (word r.toNat) else none
  | .grp r n => if t.regs.length < r.toNat + n then
      some (word (if t.regs.length ≤ r.toNat then r.toNat else t.regs.length)) else none
  | .vec n => if t.lsz ≤ n.toNat then some (word (0x100 + n.toNat)) else none

/-- How often a list reads a special number. -/
def readsOf (us : List Use) (r : Reg) : Nat := (us.filter fun u => u == .src r).length

/-- How often a parked instruction has popped a special number already (R155). -/
def keptOf (t : Thread) (r : Reg) : Nat := (t.kept.filter fun p => p.1 == r).length

/-- The stream bound to a stream register (R184). -/
def streamOf (t : Thread) (r : Reg) : Option Stream := find t.streams (r.toNat - 112)

/-- R158 step 6 for one use, after the uses before it: the trap it raises. -/
def specialTrap (t : Thread) (before : List Use) : Use → Option (Nat × Word)
  | .src r =>
    let n := readsOf before r - keptOf t r
    if readsOf before r < keptOf t r then none
    else if r = 124 then
      if (queuesOf t t.level).ld.length ≤ n then some (0x19, 124) else none
    else if 112 ≤ r.toNat ∧ r.toNat ≤ 123 then
      match streamOf t r with
      | some st => if st.kind ≠ .write ∧ n < st.cnt then none else some (0x1B, word r.toNat)
      | none => some (0x1B, word r.toNat)
    else none
  | .dst r =>
    if r = 125 then if 16 ≤ (queuesOf t t.level).sd.length then some (0x19, 125) else none
    else if 112 ≤ r.toNat ∧ r.toNat ≤ 123 then
      match streamOf t r with
      | some st => if st.kind = .write ∧ st.cnt ≠ 0 then none else some (0x1B, word r.toNat)
      | none => some (0x1B, word r.toNat)
    else none
  | _ => none

/-- The first trap of step 6, in field order. -/
def specialTraps (t : Thread) : List Use → List Use → Option (Nat × Word)
  | _, [] => none
  | before, u :: us => (specialTrap t before u).orElse fun _ => specialTraps t (before ++ [u]) us

/-- Whether a use names a register whose result is pending. -/
def busyUse (t : Thread) : Use → Bool
  | .src r => busyX t r.toNat
  | .dst r => busyX t r.toNat
  | .both r => busyX t r.toNat
  | .grp r n => (List.range n).any fun i => busyX t (r.toNat + i)
  | .vec n => busyV t n.toNat

/-- R158 steps 5 and 6, then the wait for pending registers (R182, R183). (DEDUCED, log entry 23) -/
def checkOps (us : List Use) : Act Unit := do
  let t ← me
  match us.findSome? (outside t) with
  | some v => trap 0x02 v
  | none =>
    match specialTraps t [] us with
    | some (c, v) => trap c v
    | none => if us.any (busyUse t) then hold else pure ()

/-! ### The load-data queue and the inbox (R83, R186) -/

/-- A read of `ld`: the oldest value, once it has arrived. -/
def popLd : Act Word := do
  let t ← me
  let q := queuesOf t t.level
  match q.ld with
  | [] => trap 0x19 124
  | e :: rest =>
    match e.val with
    | none => hold
    | some v =>
      setMe fun t => setQueues t t.level { q with ld := rest }
      return v

/-- R186: when the oldest wait for a job's report at a core began, of a resident thread or a saved one.
(DEDUCED, log entry 30) -/
def jwaiter (s : State) (c id : Nat) : Option Nat :=
  let waits := fun (t : Thread) => match waitOf t with
    | some (.jwait _ j) => j == id
    | _ => false
  let ts := (s.threads.filter fun p => coreOf p.1 == c).map Prod.snd ++ (s.saved.filter fun x => x.core == c).map Saved.thread
  (sortBy (fun n => n) ((ts.filter waits).map Thread.seqno)).head?

/-- R186, R263: an entry comes to a core's inbox: a JWAIT takes its job's report; else it is appended, or waits in
the message channel while the inbox is full. -/
def enterInbox (s : State) (c : Nat) (e : Word) : State :=
  let id := fld e 15 0
  match if fld e 63 60 = 1 then jwaiter s c id else none with
  | some q =>
    let r := jobStatus s c id
    let s := completeWaits s fun k t w => match w with
      | .jwait d j => if k = c ∧ j = id ∧ t.seqno = q then some [(d.toNat, r)] else none
      | _ => none
    wakeUnknown (takeReport s c id)
  | none =>
    if (core s c).inbox.length < 64 then modCore s c fun x => { x with inbox := x.inbox ++ [e] }
    else modCore s c fun x => { x with inboxOver := x.inboxOver ++ [e] }

/-- R50, R186: an entry of the message channel enters an inbox that has room again. -/
def refillInbox (s : State) (c : Nat) : State :=
  match (core s c).inboxOver with
  | [] => s
  | e :: rest => enterInbox (modCore s c fun x => { x with inboxOver := rest }) c e

/-- Whether a place in an inbox's order is one that takes an entry: a resident thread's, or a saved thread's that may be
restored (R175, R186). -/
def takesEntry (s : State) (w : Nat) : Bool :=
  decide (w < 2 ^ 20) || s.saved.any fun x => awayKey x.thread == w && !x.held

/-- The entries that a thread's waiting instruction has read, and will pop when it issues or if it parks (R155). -/
def ibNotes (t : Thread) : List Word := (t.pops.filter fun p => p.1 == 126).map Prod.snd

/-- The other resident threads of the issuing thread's core. -/
def siblings (s : State) : List (Nat × Thread) := s.threads.filter fun p => coreOf p.1 == coreOf s.cur && p.1 != s.cur

/-- R186: a read of `ib`: threads that wait get the entries that arrive in the order in which they began to wait, the
first one the head; an entry leaves the inbox when the reader it is for issues again. Each thread that waits has one entry
kept for it, or those that its waiting instruction has read. (DESIGN CHOICE, log entry 48) -/
def popIb : Act Word := do
  let s ← get
  let c := coreOf s.cur
  let x := core s c
  let noted := (siblings s).flatMap fun p => ibNotes p.2
  let reads := fun (w : Nat) => ((thr s w).map fun t => !(ibNotes t).isEmpty).getD false
  let ahead := ((x.ibWait.takeWhile fun w => w != s.cur).filter fun w => takesEntry s w && !reads w).length
  match (noted.foldl List.erase x.inbox)[ahead]? with
  | none => holdWith fun s => modCore s c fun x => { x with ibWait := if x.ibWait.contains s.cur then x.ibWait else x.ibWait ++ [s.cur] }
  | some e =>
    let s := modCore s c fun x => { x with inbox := x.inbox.erase e, ibWait := x.ibWait.filter fun w => w != s.cur }
    let s := if fld e 63 60 = 1 then wakeUnknown (takeReport s c (fld e 15 0)) else s
    set (refillInbox s c)
    return e

/-! ### Addresses (R20 to R22) -/

/-- The classes of access of R22. -/
inductive Cls where
  | load | store | atomic | vload | vstore | fetch | basinScr | basinGlob | towRange
  deriving DecidableEq, Repr

/-- The kinds that a class may use. -/
def kindOk (c : Cls) (k : Kind) : Bool :=
  match c with
  | .load => k != .null
  | .store => k != .null
  | .atomic => k != .null && k != .lane
  | .vload => k == .lane || k == .core || k == .clus || k == .chip || k == .glob
  | .vstore => k == .lane || k == .core || k == .clus || k == .chip || k == .glob
  | .fetch => k == .core || k == .clus || k == .glob
  | .basinScr => k == .core || k == .clus
  | .basinGlob => k == .glob
  | .towRange => k == .glob

/-- Whether a segment has the rights that a class needs. -/
def rightsOk (c : Cls) (s0 : Word) : Bool :=
  let rd := bitOf s0 55
  let wr := bitOf s0 56
  match c with
  | .load => rd
  | .store => wr
  | .atomic => bitOf s0 58
  | .vload => rd
  | .vstore => wr
  | .fetch => bitOf s0 57
  | .basinScr => rd && wr
  | .basinGlob => rd && wr && bitOf s0 59
  | .towRange => bitOf s0 59

/-- A thread's segment register. -/
def segOf (t : Thread) (n : Nat) : Seg := t.segs.getD n { s0 := 0, s1 := 0 }
/-- A segment's kind. -/
def Seg.kind (g : Seg) : Kind := kindOf (fld g.s0 54 52)
/-- A segment's base. -/
def Seg.base (g : Seg) : Nat := fld g.s0 51 0
/-- A segment's limit. -/
def Seg.limit (g : Seg) : Nat := fld g.s1 51 0
/-- A segment's target. -/
def Seg.tgt (g : Seg) : Nat := fld g.s1 59 52

/-- R20: the checks of an access of a class at an effective offset, in their order: the trap's code and value, or
nothing. `align` is what step 4 tests the offset against. -/
def addrTrap (s : State) (t : Thread) (n : Nat) (c : Cls) (eo : Word) (size align : Nat) : Option (Nat × Word) :=
  let g := segOf t n
  if g.kind = .null then some (0x10, word n)
  else if !kindOk c g.kind then some (0x11, word n)
  else if !rightsOk c g.s0 then some (0x12, eo)
  else if eo.toNat % align ≠ 0 then some (0x13, eo)
  else if g.limit < eo.toNat + size then some (0x14, eo)
  else if g.kind = .remc ∧ !(cluster s (clusterOf (coreOf s.cur))).acc.getLsbD g.tgt then some (0x15, word g.tgt)
  else none

/-- R20: the access that an offset in a segment names. -/
def refAt (t : Thread) (n : Nat) (eo : Word) (size : Nat) : Ref :=
  let g := segOf t n
  { kind := g.kind, tgt := g.tgt, addr := g.base + eo.toNat, size := size, lanes := [] }

/-- R20: an access formed and checked, or its exact trap (R21). -/
def address (n : Nat) (c : Cls) (eo : Word) (size align : Nat) : Act Ref := do
  let s ← get
  let t := self s
  match addrTrap s t n c eo size align with
  | some (code, v) => trap code v
  | none => return refAt t n eo size

/-! ### Blocks of doublewords that an instruction reads (R149, R292, R301) -/

/-- The loads of a block, sent one after another. -/
def askBlock (n : Nat) (eo : Word) : Nat → State → State
  | 0, s => s
  | k + 1, s =>
    let s := askBlock n eo k s
    match (startLoad .blk (refAt (self s) n (eo + word (8 * k)) 8).addr [refAt (self s) n (eo + word (8 * k)) 8] false) s with
    | .ok (_, s') => s'
    | .error _ => s

/-- Whether every doubleword of a block can be asked for now: none is held up by the thread's own buffer (R88). -/
def blockFree (s : State) (n : Nat) (eo : Word) (len : Nat) : Bool :=
  !(self s).outs.any (fun o => o.acq) && (List.range len).all fun k =>
    forward s s.cur (refAt (self s) n (eo + word (8 * k)) 8) != .blocked

/-- What reading a block at issue does besides: tow marks are reported, and POISON becomes pending (R142, R391). -/
def noteBlock (n : Nat) (eo : Word) (len : Nat) (s : State) : State :=
  let g := segOf (self s) n
  if atIssue g.kind then
    let a := place (coreOf s.cur) g.kind g.tgt (g.base + eo.toNat)
    let bad := (List.range len).filter fun k => readsPoison s (a + 8 * k) 8
    bad.foldl (fun s k => pendPoison s (word (g.base + eo.toNat + 8 * k))) (noteReads s a (8 * len))
  else s

/-- `len` doubleword loads at the instruction's place in program order, checked by R20 one by one; the thread waits
until all have come. -/
def readBlock (n : Nat) (eo : Word) (len : Nat) : Act (List Word) := do
  let s ← get
  let t := self s
  match (List.range len).findSome? fun k => addrTrap s t n .load (eo + word (8 * k)) 8 8 with
  | some (c, v) => trap c v
  | none =>
    let g := segOf t n
    match t.blk with
    | b :: bs =>
      if ((b :: bs).length = len) && (b :: bs).all (fun e => e.val.isSome) then
        setMe fun t => { t with blk := [] }
        return (b :: bs).map fun e => e.val.getD 0
      else hold
    | [] =>
      if atIssue g.kind then
        let a := place (coreOf s.cur) g.kind g.tgt (g.base + eo.toNat)
        afterAcquire
        laneGate a (8 * len)
        touchGate a (8 * len)
        let s ← get
        let bs := readPlace s t a (8 * len)
        set (noteBlock n eo len s)
        return (List.range len).map fun k => if readsPoison s (a + 8 * k) 8 then 0 else word (leNat ((bs.drop (8 * k)).take 8))
      else if blockFree s n eo len then holdWith (askBlock n eo len)
      else hold

/-- An instruction that waits once it has read its block: the block is kept as it was read (R292). -/
def keepingBlock (n : Nat) (eo : Word) (ws : List Word) (a : Act Unit) : Act Unit := fun s =>
  match a s with
  | .error (.wait w f) => .error (.wait w fun s0 =>
      let s0 := f s0
      if (self s0).blk.isEmpty then
        modSelf (noteBlock n eo ws.length s0) fun t => { t with blk := ws.map fun v => { tx := 0, val := some v } }
      else s0)
  | r => r

/-! ### Streams (R184, R185) -/

/-- The bytes of a stream element (R184). -/
def elemSize (esz : Nat) : Nat := if esz = 2 then 8 else 4

/-- A loaded element's value: zero-extended, sign-extended or a doubleword (R184). -/
def elemValue (esz : Nat) (v : Word) : Word := if esz = 1 then sextN 32 v.toNat else v

/-- The entry after one element: CNT and NEXT advance; a stream that has ended is unbound (R185).
(DESIGN CHOICE, log entry 12) -/
def popped (t : Thread) (q : Nat) (st : Stream) : Thread :=
  let st := { st with elems := st.elems.drop 1, next := if st.kind = .arrival then st.next + 1 else st.next + st.stride.signExtend 64,
                      cnt := st.cnt - 1 }
  { t with streams := if st.cnt = 0 then del t.streams q else put t.streams q st }

/-- R127, R218: an element of a job's destination that an arrival stream takes, its last one perhaps; the copy, which may
have waited for that, goes on. -/
def takeArrival (s : State) (k job idx : Nat) (last : Bool) : Option (Word × State) :=
  match (jobAt s k job).bind fun j => (j.acked.find? fun a => a.1 == idx).map Prod.snd with
  | some v =>
    let s := modJob s k job fun j =>
      { j with acked := j.acked.filter fun a => a.1 != idx, delivered := idx + 1, bound := j.bound && !last }
    some (v, forgetJob (wakeJob (endArrivals s k job) k job) k job)
  | none => none

/-- R185: a read of a stream register: the element, once it is there; a failed element traps exactly.
(DESIGN CHOICE, log entry 12) -/
def popStream (r : Reg) : Act Word := do
  let s ← get
  let t := self s
  let q := r.toNat - 112
  match find t.streams q with
  | none => trap 0x1B (word r.toNat)
  | some st =>
    match st.elems with
    | .here v :: _ =>
      setMe fun t => popped t q st
      return elemValue st.esz v
    | .refused rk who :: _ => throw (.trap 0x16 (refusedVal rk who) t.pc)
    | .poisoned va :: _ => throw (.trap 0x23 va t.pc)
    | .coming _ :: _ => hold
    | [] =>
      if st.kind = .arrival then
        match takeArrival s (clusterOf (coreOf s.cur)) st.job st.next.toNat (st.cnt == 1) with
        | some (v, s') =>
          set s'
          setMe fun t => if (find t.streams q).isSome then popped t q st else t
          return elemValue st.esz v
        | none => hold
      else
        let n := elemSize st.esz
        let ref ← address st.sg .load st.next n n
        if atIssue ref.kind then
          afterAcquire
          let p ← loadPiece ref
          match p.reply with
          | some (.data bs) =>
            setMe fun t => popped t q st
            return elemValue st.esz (word (leNat bs))
          | _ => throw (.trap 0x23 (word ref.addr) t.pc)
        else
          -- the element is asked for, and the pop waits for it
          match (startLoad (.stream q) ref.addr [ref] false) s with
          | .ok (_, _) => holdWith fun s =>
              let place := fun (t : Thread) => match find t.streams q with
                | some x => { t with streams := put t.streams q { x with elems := x.elems ++ [.coming (s.nextTx + 1)] } }
                | none => t
              match (startLoad (.stream q) ref.addr [ref] false) (modSelf s place) with
              | .ok (_, s') => s'
              | .error _ => s
          | .error e => throw e

/-- R185: a write of a stream register: a store at NEXT, performed at once or held by the stream. -/
def pushStream (r : Reg) (v : Word) : Act Unit := do
  let s ← get
  let t := self s
  let q := r.toNat - 112
  match find t.streams q with
  | none => trap 0x1B (word r.toNat)
  | some st =>
    let n := elemSize st.esz
    let ref ← address st.sg .store st.next n n
    let st' := { st with next := st.next + st.stride.signExtend 64, cnt := st.cnt - 1 }
    afterAcquire
    if atIssue ref.kind then
      storeNow ref (leBytes n v.toNat)
      setMe fun t => { t with streams := if st'.cnt = 0 && st.held.isEmpty then del t.streams q else put t.streams q st' }
    else
      if 8 ≤ st.held.length then hold
      let h : HeldStore := { kind := ref.kind, tgt := ref.tgt, addr := ref.addr, size := n, data := v, tx := s.nextTx }
      setMe fun t => { t with streams := put t.streams q { st' with held := st.held ++ [h] } }
      modify fun s => post (feedHeld (tick s) (coreOf s.cur)) (.storeDrain (coreOf s.cur))

/-! ### The store-data queue (R84) -/

/-- The oldest unpaired address and the oldest unpaired data word form a store. -/
def pairStore : Act Unit := do
  let t ← me
  let q := queuesOf t t.level
  match q.addrs, q.sd with
  | a :: as, v :: vs => do
    setMe fun t => setQueues t t.level { q with addrs := as, sd := vs }
    storeScalar { kind := a.kind, tgt := a.tgt, addr := a.addr, size := a.size, lanes := [] } v
  | _, _ => pure ()

/-- A write of `sd`. -/
def pushSd (v : Word) : Act Unit := do
  setMe fun t => let q := queuesOf t t.level; setQueues t t.level { q with sd := q.sd ++ [v] }
  pairStore

/-- An unpaired address appended (R212). -/
def pushAddr (r : Ref) : Act Unit := do
  setMe fun t =>
    let q := queuesOf t t.level
    setQueues t t.level { q with addrs := q.addrs ++ [{ kind := r.kind, tgt := r.tgt, addr := r.addr, size := r.size }] }
  pairStore

/-! ### Register fields (R154, R155) -/

/-- A read of a special number, which pops: the value that the instruction has popped before it parked, or a new one
(R155). -/
def popSpecial (r : Reg) : Act Word := do
  match (← me).kept with
  | (q, v) :: rest =>
    if q = r then
      setMe fun t => { t with kept := rest }
      return v
    else fresh
  | [] => fresh
where
  /-- A value popped now. -/
  fresh : Act Word := do
    let v ← if r = 124 then popLd else if r = 126 then popIb else popStream r
    setMe fun t => { t with pops := t.pops ++ [(r, v)] }
    return v

/-- A source field read, popping a special number. -/
def src (r : Reg) : Act Word := do
  if r.toNat < 112 then return (← me).regs.getD r.toNat 0
  else if r.toNat ≤ 124 ∨ r = 126 then popSpecial r
  else return 0

/-- R155: a waiting instruction parks: the values that it has read are popped now, and kept for when it issues again; an
inbox entry that a JWAIT has taken since is not among them (R186). -/
def keepPops (s : State) (slot : Nat) : State :=
  match thr s slot with
  | none => s
  | some t =>
    let c := coreOf slot
    let lost := fun (s : State) (p : Reg × Word) => p.1 == 126 && !(core s c).inbox.contains p.2
    let one := fun (s : State) (p : Reg × Word) =>
      if p.1 = 126 then
        let s := modCore s c fun x => { x with inbox := x.inbox.erase p.2, ibWait := x.ibWait.filter fun w => w != slot }
        refillInbox (if fld p.2 63 60 = 1 then wakeUnknown (takeReport s c (fld p.2 15 0)) else s) c
      else if p.1 = 124 then
        modThr s slot fun t => let q := queuesOf t t.level; setQueues t t.level { q with ld := q.ld.drop 1 }
      else match (thr s slot).bind fun t => find t.streams (p.1.toNat - 112) with
        | none => s
        | some st =>
          let s := if st.kind = .arrival && st.elems.isEmpty then
              ((takeArrival s (clusterOf c) st.job st.next.toNat (st.cnt == 1)).map Prod.snd).getD s
            else s
          modThr s slot fun t => if (find t.streams (p.1.toNat - 112)).isSome then popped t (p.1.toNat - 112) st else t
    let keep := fun (s : State) (p : Reg × Word) =>
      if lost s p then s else modThr (one s p) slot fun t => { t with kept := t.kept ++ [p] }
    modThr (t.pops.foldl keep s) slot fun t => { t with pops := [] }

/-- A destination field written, pushing to a special number. -/
def dst (r : Reg) (v : Word) : Act Unit := do
  if r.toNat < 112 then setMe fun t => wrReg t r.toNat v
  else if r.toNat ≤ 123 then pushStream r v
  else if r = 125 then pushSd v
  else pure ()

/-- A register group read (R156). -/
def group (r : Reg) (n : Nat) : Act (List Word) := do
  let t ← me
  return (List.range n).map fun i => t.regs.getD (r.toNat + i) 0

/-- A register group written. -/
def setGroupRegs (r : Reg) (vs : List Word) : Act Unit :=
  setMe fun t => wrRegs t (vs.zipIdx.map fun p => (r.toNat + p.2, p.1))

/-! ### Vector registers (R157, R179) -/

/-- A vector register's sixteen lanes. -/
def vreg (r : Reg) : Act (List Lane) := do
  let s ← get
  let t := self s
  return (List.range 16).map fun l => BitVec.ofNat 32 (leNat (readBytes s.mem (vPlace (coreOf s.cur) t r.toNat l) 4))

/-- The cells of active lanes of a vector register. -/
def laneWrites (c : Nat) (t : Thread) (n : Nat) (ls : List (Nat × Lane)) : List (Nat × Byte) :=
  ls.flatMap fun l => cellsAt (vPlace c t n l.1) (leBytes 4 l.2.toNat)

/-- Active lanes of a vector register written. -/
def setV (r : Reg) (ls : List (Nat × Lane)) : Act Unit :=
  modify fun s => writeWords s (laneWrites (coreOf s.cur) (self s) r.toNat ls)

end Sys2Proof.Machine
end

