-- ==== Sys2Proof/Machine/Branch.lean ====
section
/-! DEFINITION. Branches, jumps and calls (spec/12_isa_scalar.md R199 to R204). A target is checked when it is
fetched (R23). -/

namespace Sys2Proof.Machine

/-- R199: the target of a branch from the instruction's own address. -/
def branchTo (pc : Word) {w : Nat} (i : BitVec w) : Word := pc + i.signExtend 64 * 4

/-- R199: compare two sources and branch. -/
def branch (test : Word → Word → Bool) (a b : Reg) (i : BitVec 12) : Act Flow := do
  checkOps [.src a, .src b]
  let t ← me
  let x ← src a
  let y ← src b
  return if test x y then .goto (branchTo t.pc i) else .seq

/-- BEQ: branch if equal. (R199) -/
def execBeq (a b : Reg) (i : BitVec 12) (s : State) : Out := issue (branch (fun x y => x == y) a b i) s

/-- BNE: branch if different. (R199) -/
def execBne (a b : Reg) (i : BitVec 12) (s : State) : Out := issue (branch (fun x y => x != y) a b i) s

/-- BLT: branch if less, signed. (R199) -/
def execBlt (a b : Reg) (i : BitVec 12) (s : State) : Out := issue (branch (fun x y => x.slt y) a b i) s

/-- BGE: branch if greater or equal, signed. (R199) -/
def execBge (a b : Reg) (i : BitVec 12) (s : State) : Out := issue (branch (fun x y => y.sle x) a b i) s

/-- BLTU: branch if less, unsigned. (R199) -/
def execBltu (a b : Reg) (i : BitVec 12) (s : State) : Out := issue (branch (fun x y => x.ult y) a b i) s

/-- BGEU: branch if greater or equal, unsigned. (R199) -/
def execBgeu (a b : Reg) (i : BitVec 12) (s : State) : Out := issue (branch (fun x y => y.ule x) a b i) s

/-- JMP: an unconditional jump. (R200) -/
def execJmp (i : BitVec 26) (s : State) : Out :=
  issue (do
    let t ← me
    return .goto (branchTo t.pc i)) s

/-- CALL: the link to x[d], and a jump. (R201) -/
def execCall (d : Reg) (i : BitVec 19) (s : State) : Out :=
  issue (do
    checkOps [.dst d]
    let t ← me
    dst d (t.pc + 4)
    return .goto (branchTo t.pc i)) s

/-- JR: a jump to x[a]. (R202) -/
def execJr (a : Reg) (s : State) : Out :=
  issue (do
    checkOps [.src a]
    let x ← src a
    return .goto x) s

/-- CALLR: the target read, the link written, the jump made. (R202) -/
def execCallr (d a : Reg) (s : State) : Out :=
  issue (do
    checkOps [.src a, .dst d]
    let t ← me
    let x ← src a
    dst d (t.pc + 4)
    return .goto x) s

/-- BDNZ: x[d] minus 1, and a branch if that is not 0. (R203) -/
def execBdnz (d : Reg) (i : BitVec 19) (s : State) : Out :=
  issue (do
    checkOps [.both d]
    let t ← me
    let x ← src d
    dst d (x - 1)
    return if x - 1 ≠ 0 then .goto (branchTo t.pc i) else .seq) s

end Sys2Proof.Machine
end

