-- ==== Sys2Proof/Machine/Cache.lean ====
section
/-! DEFINITION. Binding streams, prefetch and cache maintenance (spec/13_isa_memory.md R217, R219 to R222). -/

namespace Sys2Proof.Machine

/-- R217, R219: whether a stream request word is refused. -/
def badRequest (w : Word) : Bool :=
  fld w 63 62 != 0 || fld w 59 48 != 0 || fld w 61 60 == 3 || fld w 47 24 == 0

/-- R185: a stream register bound again: an arrival stream leaves its job, read-ahead elements go, and a write
stream's held elements are stored first. -/
def bind_ (d : Reg) (st : Stream) : Act Unit := do
  let s ← get
  let t := self s
  let q := d.toNat - 112
  match find t.streams q with
  | none => pure ()
  | some o =>
    if !o.held.isEmpty then hold
    if o.kind = .arrival then
      let k := clusterOf (coreOf s.cur)
      set (forgetJob (modJob s k o.job fun j => { j with bound := false }) k o.job)
  setMe fun t => { t with streams := put t.streams q st }

/-- R217: steps 1 to 3 and 6 of R20 at a binding, of which an offset and size of 0 pass the others; the offset that a trap
reports is x[a] (R21). -/
def bindCheck (sg : Nat) (cls : Cls) (off : Word) : Act Unit := do
  let s ← get
  match addrTrap s (self s) sg cls 0 0 1 with
  | some (code, v) => trap code (if code = 0x12 then off else v)
  | none => pure ()

/-- R217: a read or write stream bound. -/
def bindStream (kind : StreamKind) (cls : Cls) (d a b : Reg) (sg : BitVec 3) : Act Flow := do
  checkOps [.src a, .src b]
  let off ← src a
  let w ← src b
  bindCheck sg.toNat cls off
  let esz := fld w 61 60
  let stride : BitVec 24 := BitVec.ofNat 24 (fld w 23 0)
  if badRequest w || decide (stride.toInt % elemSize esz ≠ 0) then trap 0x1D w
  bind_ d { kind := kind, esz := esz, sg := sg.toNat, cnt := fld w 47 24, stride := stride, job := 0, next := off, elems := [],
            held := [] }
  return .seq

/-- STRM: binds a read stream. (R217) (DEDUCED, log entry 23) -/
def execStrm (d a b : Reg) (sg : BitVec 3) (s : State) : Out := issue (bindStream .read .load d a b sg) s

/-- STRX: binds a write stream. (R217) -/
def execStrx (d a b : Reg) (sg : BitVec 3) (s : State) : Out := issue (bindStream .write .store d a b sg) s

/-- R220: the read that stands for the fill of a hint on GLOB: of the line, for the L1 (`.l1`); for the home L2 alone, with the
halves that the host owns left to it (`.l2`), or taken back (`.wr`). -/
def prefRead (h : BitVec 2) : Nat := if h = 0 then 128 else if h = 1 then 64 else 127

/-- PREF: starts a fill by hint; it never traps on its address and never waits for a fill. (R220)
(DEDUCED, log entry 23) -/
def execPref (sg : BitVec 3) (a : Reg) (h : BitVec 2) (s : State) : Out :=
  issue (do
    checkOps [.src a]
    let eo ← src a
    let s ← get
    let t := self s
    if (addrTrap s t sg.toNat .load eo 1 1).isSome then return .seq
    let r := refAt t sg.toNat eo 1
    let c := coreOf s.cur
    match r.kind with
    | .glob =>
      set (atPort (tick s) (access s (.prefetch c) r (.read (prefRead h)) .th))
    | .core =>
      match tagAt s (place c .core 0 r.addr) with
      | some (c', clus, sl, tag) =>
        if tag.v ≠ BitVec.allOnes 32 ∧ ((basin s c' tag.bn).map fun b => b.st) = some .active then set (startFill s c' clus sl)
      | none => pure ()
    | .clus =>
      match tagAt s (place c .clus 0 r.addr) with
      | some (c', clus, sl, tag) =>
        if tag.v ≠ BitVec.allOnes 32 ∧ ((basin s c' tag.bn).map fun b => b.st) = some .active then set (startFill s c' clus sl)
      | none => pure ()
    | _ => pure ()
    return .seq) s

/-- R221: the write-back of one basin line that the thread waits for; only a thread of the holder core writes it back (R65). -/
def flushBasinLine (a : Nat) : Act Flow := do
  let s ← get
  match tagAt s a with
  | none => return .seq
  | some (c, clus, sl, tag) =>
    let m := tag.dm &&& ~~~ tag.sent
    if m = 0 || c != coreOf s.cur then return .seq
    set (writeBackLines (tick s) c (some s.nextTx) [(tag.bn, clus, sl, m)])
    inside (.basin none none 0 s.nextTx)

/-- CFLUSH: a global line written to memory, or a basin line written back. (R221) -/
def execCflush (sg : BitVec 3) (a : Reg) (s : State) : Out :=
  issue (do
    checkOps [.src a]
    let eo ← src a
    let r ← address sg.toNat .load eo 1 1
    let s ← get
    match r.kind with
    | .glob =>
      afterAcquire
      bufferStores [{ slot := s.cur, kind := .glob, tgt := 0, words := [(r.addr, 1, 0)], flush := true }]
      inside (.flush s.nextTx)
    | .core => flushBasinLine (place (coreOf s.cur) .core 0 r.addr)
    | .clus => flushBasinLine (place (coreOf s.cur) .clus 0 r.addr)
    | _ => return .seq) s

/-- R222: a basin line's CLEAN words become ABSENT. -/
def dropClean (s : State) (a : Nat) : State :=
  match tagAt s a with
  | none => s
  | some (c, clus, sl, tag) =>
    let clean := tag.v &&& ~~~ tag.dm
    if clean = 0 then s
    else
      let s := reportTow s c clus sl false
      setTag s c clus sl { tag with v := tag.v &&& ~~~ clean, tow := none }

/-- R222: the core's L1 copy of a global line is dropped; where no TLB entry tells the line, once the port has walked for it
(R372), ahead of the core's later accesses to the page. -/
def dropL1 (s : State) (r : Ref) : State :=
  let c := coreOf s.cur
  let q := access s (.prefetch c) r .flush .th
  match tlbFind (cluster s (clusterOf c)).tlb q.cid q.addr with
  | some e => l1Drop s c (if e.common then 0 else q.cid) ((e.pa + q.addr % e.size) / 128)
  | none => atPort (tick s) q

/-- CINV: the L1 copy of a global line, or a basin line's clean words, dropped. (R222) -/
def execCinv (sg : BitVec 3) (a : Reg) (s : State) : Out :=
  issue (do
    checkOps [.src a]
    let eo ← src a
    let r ← address sg.toNat .load eo 1 1
    modify fun s =>
      let c := coreOf s.cur
      match r.kind with
      | .glob => dropL1 s r
      | .core => dropClean s (place c .core 0 r.addr)
      | .clus => dropClean s (place c .clus 0 r.addr)
      | _ => s
    return .seq) s

end Sys2Proof.Machine
end

