-- ==== Sys2Proof/Machine/Memory.lean ====
section
/-! DEFINITION. Loads, stores, queue loads and stores, acquire, release, fence, and atomics
(spec/13_isa_memory.md R206 to R216). -/

namespace Sys2Proof.Machine

/-- The effective offset of the M format (R20). -/
def effOff (x : Word) (o : BitVec 9) (size : Nat) : Word := x + o.signExtend 64 * word size

/-- A load's destination: a window register, or nothing for `zr` (R206). -/
def loadDest (t : Reg) (size : Nat) (sgn : Bool) : Dest := if t.toNat < 112 then .x t.toNat size sgn else .discard

/-- R207: a scalar load. -/
def load (size : Nat) (sgn : Bool) (t a : Reg) (sg : BitVec 3) (o : BitVec 9) : Act Flow := do
  checkOps [.src a, .dst t]
  let x ← src a
  let r ← address sg.toNat .load (effOff x o size) size size
  startLoad (loadDest t size sgn) r.addr [r] false
  return .seq

/-- R207: a scalar store. -/
def store (size : Nat) (t a : Reg) (sg : BitVec 3) (o : BitVec 9) : Act Flow := do
  checkOps [.src a, .src t]
  let x ← src a
  let v ← src t
  let r ← address sg.toNat .store (effOff x o size) size size
  storeScalar r v
  return .seq

/-- LDB: loads a byte, sign-extended. (R207) -/
def execLdb (t a : Reg) (sg : BitVec 3) (o : BitVec 9) (s : State) : Out := issue (load 1 true t a sg o) s

/-- LDBU: loads a byte, zero-extended. (R207) -/
def execLdbu (t a : Reg) (sg : BitVec 3) (o : BitVec 9) (s : State) : Out := issue (load 1 false t a sg o) s

/-- LDH: loads a halfword, sign-extended. (R207) -/
def execLdh (t a : Reg) (sg : BitVec 3) (o : BitVec 9) (s : State) : Out := issue (load 2 true t a sg o) s

/-- LDHU: loads a halfword, zero-extended. (R207) -/
def execLdhu (t a : Reg) (sg : BitVec 3) (o : BitVec 9) (s : State) : Out := issue (load 2 false t a sg o) s

/-- LDW: loads a word, sign-extended. (R207) -/
def execLdw (t a : Reg) (sg : BitVec 3) (o : BitVec 9) (s : State) : Out := issue (load 4 true t a sg o) s

/-- LDWU: loads a word, zero-extended. (R207) -/
def execLdwu (t a : Reg) (sg : BitVec 3) (o : BitVec 9) (s : State) : Out := issue (load 4 false t a sg o) s

/-- LDD: loads a doubleword. (R207) -/
def execLdd (t a : Reg) (sg : BitVec 3) (o : BitVec 9) (s : State) : Out := issue (load 8 false t a sg o) s

/-- STB: stores the low byte. (R207) -/
def execStb (t a : Reg) (sg : BitVec 3) (o : BitVec 9) (s : State) : Out := issue (store 1 t a sg o) s

/-- STH: stores the low halfword. (R207) -/
def execSth (t a : Reg) (sg : BitVec 3) (o : BitVec 9) (s : State) : Out := issue (store 2 t a sg o) s

/-- STW: stores the low word. (R207) -/
def execStw (t a : Reg) (sg : BitVec 3) (o : BitVec 9) (s : State) : Out := issue (store 4 t a sg o) s

/-- STD: stores a doubleword. (R207) -/
def execStd (t a : Reg) (sg : BitVec 3) (o : BitVec 9) (s : State) : Out := issue (store 8 t a sg o) s

/-- R212, R85: a queue load into `ld`; one whose offset register is `ld` pops before the unpopped values are counted.
(DEDUCED, log entry 23; DESIGN CHOICE, log entry 48) -/
def queueLoad (size : Nat) (sgn : Bool) (a : Reg) (sg : BitVec 3) (o : BitVec 9) : Act Flow := do
  checkOps [.src a]
  let x ← src a
  let r ← address sg.toNat .load (effOff x o size) size size
  let t ← me
  if 16 ≤ (queuesOf t t.level).ld.length then trap 0x19 124
  startLoad (.ld t.level size sgn) r.addr [r] false
  return .seq

/-- R212, R84, R85: a queue store's address. (DEDUCED, log entry 23) -/
def queueStore (size : Nat) (a : Reg) (sg : BitVec 3) (o : BitVec 9) : Act Flow := do
  checkOps [.src a]
  let x ← src a
  let r ← address sg.toNat .store (effOff x o size) size size
  let t ← me
  if 16 ≤ (queuesOf t t.level).addrs.length then trap 0x19 125
  pushAddr r
  return .seq

/-- LDQW: a word, sign-extended, into `ld`. (R212) -/
def execLdqw (a : Reg) (sg : BitVec 3) (o : BitVec 9) (s : State) : Out := issue (queueLoad 4 true a sg o) s

/-- LDQD: a doubleword into `ld`. (R212) -/
def execLdqd (a : Reg) (sg : BitVec 3) (o : BitVec 9) (s : State) : Out := issue (queueLoad 8 false a sg o) s

/-- STQW: a word store's address. (R212) -/
def execStqw (a : Reg) (sg : BitVec 3) (o : BitVec 9) (s : State) : Out := issue (queueStore 4 a sg o) s

/-- STQD: a doubleword store's address. (R212) -/
def execStqd (a : Reg) (sg : BitVec 3) (o : BitVec 9) (s : State) : Out := issue (queueStore 8 a sg o) s

/-- The size that SZ gives (R213, R214). -/
def szBytes (z : Bool) : Nat := if z then 8 else 4

/-- LDA: a load, zero-extended, that orders what follows. (R101, R213) -/
def execLda (t a : Reg) (sg : BitVec 3) (z : Bool) (_c : Scope) (k : BitVec 3) (s : State) : Out :=
  issue (do
    checkOps [.src a, .dst t]
    let x ← src a
    let n := szBytes z
    let r ← address sg.toNat .load (x + word (k.toNat * n)) n n
    startLoad (loadDest t n false) r.addr [r] true
    return .seq) s

/-- STL: the waits of a release, then a store. (R102, R113, R213) -/
def execStl (t a : Reg) (sg : BitVec 3) (z : Bool) (c : Scope) (k : BitVec 3) (s : State) : Out :=
  issue (do
    checkOps [.src a, .src t]
    let x ← src a
    let v ← src t
    let n := szBytes z
    let r ← address sg.toNat .store (x + word (k.toNat * n)) n n
    release c
    storeScalar r v
    return .seq) s

/-- FENCE: the waits of its scope. (R92, R93, R103) -/
def execFence (c : Scope) (s : State) : Out :=
  issue (do
    release c
    return .seq) s

/-- R214: an atomic on one operand. -/
def atomic (op : Aop) (d a : Reg) (z : Bool) (c : Scope) (ord : AOrd) (g : BitVec 2) : Act Flow := do
  checkOps [.src a, .both d]
  let eo ← src a
  let n := szBytes z
  let r ← address g.toNat .atomic eo n n
  let p ← src d
  startAtomic (if d.toNat < 112 then some d.toNat else none) r op p 0 c ord
  return .seq

/-- AADD: atomic add. (R214) -/
def execAadd (d a : Reg) (z : Bool) (c : Scope) (r : AOrd) (g : BitVec 2) (s : State) : Out :=
  issue (atomic .add d a z c r g) s

/-- AAND: atomic bitwise and. (R214) -/
def execAand (d a : Reg) (z : Bool) (c : Scope) (r : AOrd) (g : BitVec 2) (s : State) : Out :=
  issue (atomic .and d a z c r g) s

/-- AOR: atomic bitwise or. (R214) -/
def execAor (d a : Reg) (z : Bool) (c : Scope) (r : AOrd) (g : BitVec 2) (s : State) : Out :=
  issue (atomic .or d a z c r g) s

/-- AXOR: atomic exclusive or. (R214) -/
def execAxor (d a : Reg) (z : Bool) (c : Scope) (r : AOrd) (g : BitVec 2) (s : State) : Out :=
  issue (atomic .xor d a z c r g) s

/-- AMIN: atomic signed minimum. (R214) -/
def execAmin (d a : Reg) (z : Bool) (c : Scope) (r : AOrd) (g : BitVec 2) (s : State) : Out :=
  issue (atomic .min d a z c r g) s

/-- AMAX: atomic signed maximum. (R214) -/
def execAmax (d a : Reg) (z : Bool) (c : Scope) (r : AOrd) (g : BitVec 2) (s : State) : Out :=
  issue (atomic .max d a z c r g) s

/-- AMINU: atomic unsigned minimum. (R214) -/
def execAminu (d a : Reg) (z : Bool) (c : Scope) (r : AOrd) (g : BitVec 2) (s : State) : Out :=
  issue (atomic .minu d a z c r g) s

/-- AMAXU: atomic unsigned maximum. (R214) -/
def execAmaxu (d a : Reg) (z : Bool) (c : Scope) (r : AOrd) (g : BitVec 2) (s : State) : Out :=
  issue (atomic .maxu d a z c r g) s

/-- ASWP: atomic swap. (R214) -/
def execAswp (d a : Reg) (z : Bool) (c : Scope) (r : AOrd) (g : BitVec 2) (s : State) : Out :=
  issue (atomic .swp d a z c r g) s

/-- ACAS: compare x[d] and swap in x[d+1]. (R214, R215) -/
def execAcas (d a : Reg) (z : Bool) (c : Scope) (r : AOrd) (g : BitVec 2) (s : State) : Out :=
  issue (do
    checkOps [.src a, .grp d 2]
    let eo ← src a
    let n := szBytes z
    let ref ← address g.toNat .atomic eo n n
    let vs ← group d 2
    startAtomic (some d.toNat) ref .cas (vs.getD 0 0) (vs.getD 1 0) c r
    return .seq) s

end Sys2Proof.Machine
end

