-- ==== Sys2Proof/Machine/Basin.lean ====
section
/-! DEFINITION. The basin instructions (spec/04_basins.md R70 to R75). -/

namespace Sys2Proof.Machine

/-- The lines of a basin's scratchpad side. -/
def basinLines (b : Basin) : List Nat := (List.range (b.len / 128)).map fun i => b.sbase / 128 + i

/-- A tag of a line just mapped (R70). -/
def freshTag (bn : Nat) : LineTag :=
  { bn := bn, fp := false, reg := false, v := 0, dm := 0, sent := 0, probed := 0, tow := none }

/-- R57: whether a new basin's scratchpad range overlaps an active one, or its global range one of its core that is not
free yet: the write-backs of a DROPPING basin may still be on their way. -/
def basinOverlap (s : State) (c : Nat) (b : Basin) : Bool :=
  let used := fun (k : Nat) => ((core s k).basins.map Prod.snd).filter fun x => x.st != .free
  let cores := if b.clus then (List.range 8).map fun i => clusterOf c * 8 + i else [c]
  (cores.any fun k => (used k).any fun x => x.st == .active && x.clus == b.clus && meets x.sbase x.len b.sbase b.len) ||
    (used c).any fun x => meets x.gva x.len b.gva b.len

/-- R70: a basin mapped: its descriptor ACTIVE, its lines tagged with every word ABSENT. -/
def mapBasin (s : State) (c bn : Nat) (b : Basin) : State :=
  modCore s c fun x => { x with
    basins := put x.basins bn b
    tags := (basinLines b).foldl (fun m l => put m (tagKey b.clus l) (freshTag bn)) x.tags }

/-- BSNMAP: maps a basin between a scratchpad range and a global range. (R72) -/
def execBsnmap (d a b : Reg) (s : State) : Out :=
  issue (do
    checkOps [.grp a 1, .grp b 1, .dst d]
    let w := (← group a 1).getD 0 0
    let goff := (← group b 1).getD 0 0
    let len := fld w 20 0
    let soff := fld w 40 21
    let bn := fld w 57 54
    if fld w 53 41 ≠ 0 ∨ len = 0 ∨ len % 128 ≠ 0 then trap 0x18 w
    let sr ← address (fld w 63 61) .basinScr (word soff) len 128
    let gr ← address (fld w 60 58) .basinGlob goff len 128
    if sr.addr % 128 ≠ 0 ∨ gr.addr % 128 ≠ 0 then trap 0x18 w
    let s ← get
    let c := coreOf s.cur
    let nb : Basin :=
      { st := .active, clus := sr.kind == .clus, cf := false, ow := false, sf := false, gva := gr.addr, sbase := sr.addr,
        len := len }
    if ((basin s c bn).map fun x => x.st).getD .free ≠ .free then dst d 1
    else if basinOverlap s c nb then dst d 2
    else
      set (mapBasin s c bn nb)
      dst d 0
    return .seq) s

/-- BSNSYNC: writes back the dirty words of the selected basins; the mask of refused ones. (R73) -/
def execBsnsync (d a : Reg) (s : State) : Out :=
  issue (do
    checkOps [.grp a 1, .dst d]
    let w := (← group a 1).getD 0 0
    if fld w 63 16 ≠ 0 then trap 0x18 w
    let s ← get
    let c := coreOf s.cur
    let sel := fun bn => bitOf w bn && ((basin s c bn).map fun x => x.st) == some .active
    let ls := dirtyLines s c sel
    if ls.isEmpty then
      dst d 0
      return .seq
    set (writeBackLines (tick s) c (some s.nextTx) ls)
    inside (.basin (some d) none 0 s.nextTx)) s

/-- R75: a freed descriptor's status: STATE = FREE over its flags. -/
def freeStatus (b : Basin) : Word :=
  word (b.cf.toNat * 2 ^ 61 + b.ow.toNat * 2 ^ 60 + b.sf.toNat * 2 ^ 59 + b.clus.toNat * 2 ^ 58)

/-- The access that an event carries to a home or a remote storage. -/
def carried : Event → Option Access
  | .requestAtHome _ r => some r
  | .remoteAccessArrival r => some r
  | _ => none

/-- R70: the messages in flight for lines that a basin gives up: their fills are discarded, and their probes find no
basin line and are answered. -/
def dropMessages (s : State) (c : Nat) (mine : Bool → Nat → Bool) : State :=
  let fill := fun (r : Access) => match r.agent with
    | .fill k clus sl => k == c && mine clus sl
    | _ => false
  let keep := fun (e : Event) => match e with
    | .basinFillLands ⟨_, k⟩ clus sl _ _ => !(k == c && mine clus sl)
    | e => !((carried e).map fill).getD false
  let src := nodeCore c
  let answered := fun (e : Event) => match e with
    | .basinInvalidationProbe k clus sl h cid line m fb =>
      if k == c && mine clus sl then .probeAckAtHome ⟨src, h⟩ cid line false else .basinInvalidationProbe k clus sl h cid line m fb
    | .recallProbe k clus sl h cid line =>
      if k == c && mine clus sl then .probeAckAtHome ⟨src, h⟩ cid line false else .recallProbe k clus sl h cid line
    | e => e
  let s := { s with due := (s.due.filter keep).map answered }
  let rest := fun (rs : List Access) => rs.filter fun r => !fill r
  let s := modCluster s (clusterOf c) fun x => { x with
    queued := rest x.queued
    held := rest x.held
    walks := x.walks.map fun w => { w with waiting := rest w.waiting } }
  let home := fun (x : Slice) => { x with
    lines := x.lines.map fun l => { l with waiting := rest l.waiting }
    noRoom := rest x.noRoom }
  { s with slices := s.slices.map fun h => (h.1, home h.2) }

/-- R70, R74: an active basin begins to drop: written back if asked, its lines plain again, its holder records
released; a tow mark of a line that goes is lost with no report. (DEDUCED, log entry 41; DESIGN CHOICE, log entry 49) -/
def dropBasin (s : State) (c bn : Nat) (wb : Bool) (tag : Option Nat) : State :=
  let s := if wb then writeBackLines s c tag (dirtyLines s c fun n => n == bn) else s
  let mine := (core s c).tags.filter fun p => p.2.bn == bn
  let s := modCore (modBasin s c bn fun b => { b with st := .dropping }) c fun x => { x with
    tags := x.tags.filter fun p => p.2.bn != bn }
  let line := fun (k : Nat) => (decide (2048 ≤ k), if 2048 ≤ k then k - 2048 else k)
  let drop := fun (o : Holder) => o.core == c && mine.any fun p => line p.1 == (o.clus, o.sline)
  let s := { s with slices := s.slices.map fun h => (h.1, { h.2 with holders := h.2.holders.filter fun o => !drop o }) }
  let s := dropMessages s c fun clus sl => mine.any fun p => line p.1 == (clus, sl)
  mine.foldl (fun s p => wakeTouches s (storageLine c (line p.1).1 (line p.1).2) none) s

/-- R70, R74: a DROPPING basin that has no write-back in flight any more is FREE, and every thread that waits for that,
resident or saved, gets its status. -/
def freeDropped (s : State) (c bn : Nat) : State :=
  match basin s c bn with
  | some b =>
    if b.st = .dropping && !(core s c).wbs.any fun w => w.bn == bn then
      let s := modBasin s c bn fun b => { b with st := .free }
      completeWaits s fun k _ w => match w with
        | .basin d (some n) _ _ => if k == c && n == bn then some (d.toList.map fun r => (r.toNat, freeStatus b)) else none
        | _ => none
    else s
  | none => s

/-- R74: drops a basin, with or without its write-back. -/
def bsndrop (wb : Bool) (d a : Reg) : Act Flow := do
  checkOps [.grp a 1, .dst d]
  let w := (← group a 1).getD 0 0
  if fld w 63 4 ≠ 0 then trap 0x18 w
  let bn := fld w 3 0
  let s ← get
  let c := coreOf s.cur
  match ((basin s c bn).map fun x => x.st).getD .free with
  | .free =>
    dst d (basinStatus s c bn)
    return .seq
  | .dropping =>
    set (tick s)
    inside (.basin (some d) (some bn) 0 s.nextTx)
  | .active =>
    let s' := freeDropped (dropBasin (tick s) c bn wb (some s.nextTx)) c bn
    set s'
    if ((basin s' c bn).map fun x => x.st) == some .dropping then inside (.basin (some d) (some bn) 0 s.nextTx)
    else
      dst d (((basin s' c bn).map freeStatus).getD 0)
      return .seq

/-- BSNDROP.wb: drops a basin after writing it back. (R74) -/
def execBsndropWb (d a : Reg) (s : State) : Out := issue (bsndrop true d a) s

/-- BSNDROP.nw: drops a basin; its dirty words stay as plain data. (R74) -/
def execBsndropNw (d a : Reg) (s : State) : Out := issue (bsndrop false d a) s

/-- BSNQRY: the status word; its flags cleared if asked. (R75) -/
def execBsnqry (d a : Reg) (s : State) : Out :=
  issue (do
    checkOps [.grp a 1, .dst d]
    let w := (← group a 1).getD 0 0
    if fld w 63 9 ≠ 0 ∨ fld w 7 4 ≠ 0 then trap 0x18 w
    let s ← get
    let c := coreOf s.cur
    let bn := fld w 3 0
    let r := basinStatus s c bn
    if bitOf w 8 then set (modBasin s c bn fun b => { b with cf := false, ow := false, sf := false })
    dst d r
    return .seq) s

end Sys2Proof.Machine
end

