-- ==== Sys2Proof/Machine/Create.lean ====
section
/-! DEFINITION. Threads come and go on a core: windows (spec/11_threads.md R175 to R179), spawns and restores
(spec/18_isa_tasks.md R284, R285; spec/20_answer_table.md R326, R336), handler-slot reservations
(spec/16_matrix.md R265), the order in which free slots are given (spec/22_scheduling.md R347), and saves
(spec/23_traps.md R359, R360). -/

namespace Sys2Proof.Machine

/-! ### Windows (R177) -/

/-- The lowest free run of a size that starts on a multiple of 8. -/
def freeRun (used : List (Nat × Nat)) (bound size : Nat) : Option Nat :=
  if size = 0 then some 0
  else (scan (fun k => decide (8 * k + size ≤ bound) && !(used.any fun u => meets u.1 u.2 (8 * k) size)) (bound / 8) 0).map (8 * ·)

/-- A core's resident threads. -/
def residents (s : State) (c : Nat) : List (Nat × Thread) := s.threads.filter fun p => coreOf p.1 == c

/-- The register runs in use on a core, those of reserved slots among them (R265). -/
def regRuns (s : State) (c : Nat) : List (Nat × Nat) :=
  (residents s c).map (fun p => (p.2.rbase, p.2.regs.length)) ++ (core s c).reserved.map fun r => (r.rbase, r.rsz)

/-- The lane runs in use on a core. -/
def laneRuns (s : State) (c : Nat) : List (Nat × Nat) :=
  (residents s c).map (fun p => (p.2.lbase, p.2.lsz)) ++ (core s c).reserved.map fun r => (r.lbase, r.lsz)

/-- The lowest EMPTY slot of a core; a reserved slot is occupied. -/
def emptySlot (s : State) (c : Nat) : Option Nat :=
  scan (fun k => (thr s k).isNone && !((core s c).reserved.any fun r => r.slot == k)) 64 (c * 64)

/-- A slot with windows of given sizes: the slot and the bases. -/
def fit (s : State) (c rsz lsz : Nat) : Option (Nat × Nat × Nat) :=
  match emptySlot s c, freeRun (regRuns s c) 2048 rsz, freeRun (laneRuns s c) 512 lsz with
  | some k, some rb, some lb => some (k, rb, lb)
  | _, _, _ => none

/-! ### Creation (R175, R285) -/

/-- A slot's thread has issued nothing yet: it has no turn spacing to keep (R182, R349). -/
def unspaced (s : State) (slot : Nat) : State := modCore s (coreOf slot) fun x => { x with issued := del x.issued (slot % 64) }

/-- R389: a window written whole holds no poison. -/
def cleanWindow (s : State) (c rb n : Nat) : State :=
  modCore s c fun x => { x with badRegs := x.badRegs.filter fun b => !(decide (8 * rb ≤ b) && decide (b < 8 * (rb + n))) }

/-- R361: a thread that begins while its flotilla is being handed over is pending like the others: it is saved in its turn. -/
def lateSave (s : State) (slot f : Nat) : State :=
  let e := Event.forcedSave (coreOf slot)
  if (((find s.flotillas f).map fun x => x.next.isSome).getD false) && !s.timers.contains e then post s e else s

/-- A thread begins in a slot, and endpoints that wait for its identifier are placed (R303).
(DESIGN CHOICE, log entry 3) -/
def beginThread (s : State) (slot : Nat) (t : Thread) : State :=
  let mine := fun (e : Endpoint) => e.st == .unplaced && e.owner == t.swid
  lateSave (placeEps (setThr (cleanWindow (unspaced s slot) (coreOf slot) t.rbase t.regs.length) slot t) (cidOf s (coreOf slot)) slot mine) slot t.flotilla

/-- A window of registers with the creation's arguments in x0 upward. -/
def newRegs (rsz : Nat) (args : List Word) : List Word := (args ++ List.replicate rsz 0).take rsz

/-- The flotilla that a thread created on a core counts to: the one that asked for it, or the one that holds the cluster
when that has retired (R345). -/
def countsTo (s : State) (c f : Nat) : Nat := if (find s.flotillas f).isSome then f else (cluster s (clusterOf c)).flotilla

/-- The child of a spawn (R285). -/
def child (q : SpawnReq) (f rb lb : Nat) : Thread :=
  { blank with
    pc := q.pc, level := levelOf q.level, swid := q.swid, regs := newRegs q.rsz q.args, rbase := rb, lbase := lb,
    lsz := q.lsz, segs := q.segs.map fun g => { s0 := g.1, s1 := g.2 }, spt := q.spt, tvec := q.tvec, flotilla := f }

/-- A spawn starts on its core, if a slot fits. -/
def startSpawn (s : State) (c : Nat) (q : SpawnReq) : Option State :=
  (fit s c q.rsz q.lsz).map fun f => beginThread s f.1 (child q (countsTo s c q.flotilla) f.2.1 f.2.2)

/-- SPAWN's answer reaches the spawner (R284). -/
def answerSpawn (s : State) (slot r : Nat) : State :=
  match (thr s slot).bind waitOf with
  | some (.spawn d) => complete s slot [(d.toNat, word r)]
  | _ => s

/-! ### Activations (R326, R336) -/

/-- A runnable snapshot is restored as an activation: ANSWER at its position, its cursor one further, its record freed.
(DEDUCED, log entry 42) Where field a lies within the result's registers, the result stands. (DESIGN CHOICE, log entry 51) -/
def startSnap (s : State) (c d i : Nat) : Option State :=
  match find (tbl s d).snaps i with
  | none => some s
  | some n =>
    if !n.runnable || n.core != c then some s
    else (fit s c n.regs.length n.lsz).map fun f =>
      let r := cursorRec n.cursor
      let a := ((entryOf (tbl s d) n.entry).bind fun e => e.answers[n.pos]?).getD []
      let t : Thread :=
        { blank with
          pc := n.pc + 4, level := n.level, swid := n.swid, regs := n.regs, rbase := f.2.1, lbase := f.2.2, lsz := n.lsz,
          segs := n.segs, vp := n.vp, spt := n.spt, vrm := n.vrm, tvec := n.tvec, flotilla := countsTo s c n.flotilla,
          frames := [n.frame], cursors := [n.cursor] }
      let t := if n.areg < n.regs.length then wrReg t n.areg n.cursor else t
      let t := wrRegs t (tnextRegs n.d (tnextWords ((a.length - 1) * 2 ^ 8) a))
      let s := modTbl s d fun x => { advance x r with snaps := del x.snaps i }
      beginThread s f.1 t

/-! ### Saves (R131, R359, R360) -/

/-- The limits that run under a slot's name, run under another. -/
def renameTimers (s : State) (a b : Nat) : State :=
  let f := fun (e : Event) => match e with
    | .sleepLimit k => if k = a then .sleepLimit b else e
    | .recvtLimit k => if k = a then .recvtLimit b else e
    | _ => e
  { s with timers := s.timers.map f }

/-- How many contexts a partition may keep saved: the records of its context area (R359). -/
def recordsOf (s : State) (c : Nat) : Nat := fld (core s c).ctxa 63 56 * 1024

/-- The contexts of a partition that are saved or being saved. -/
def savedCount (s : State) (cid : Nat) : Nat :=
  (s.saved.filter fun x => cidOf s x.core == cid).length +
    (s.threads.filter fun p => p.2.saving.isSome && cidOf s (coreOf p.1) == cid).length

/-- A save begins: the slot issues nothing more (R175, R359). (DEDUCED, log entry 26; DESIGN CHOICE, log entry 44) -/
def beginSave (s : State) (slot : Nat) (forced : Bool) : State :=
  let c := coreOf slot
  if savedCount s (cidOf s c) < recordsOf s c then
    let s := leaveTouch s (clusterOf c) (.slot slot) none
    let rest := fun (t : Thread) => match t.status with
      | .wait (.touch _) => Status.wait .retry
      | st => st
    post (modThr s slot fun t => { t with saving := some forced, status := rest t, landed := none, pops := [] }) (.saveReported slot)
  else s

/-- Waits that a save lets end first: their operations name the slot. (DEDUCED, log entry 26) -/
def slotBound : Option Wait → Bool
  | some (.spawn _) => true
  | some (.pinv _ _) => true
  | some (.flush _) => true
  | _ => false

/-- R131: whether a slot's save may be reported. An access that is parked on a page fault is sent again after the restore
(R357); write-backs of the thread's basins need not have been acknowledged (R76). (DEDUCED, log entry 26) -/
def saveDone (s : State) (slot : Nat) : Bool :=
  match thr s slot with
  | none => true
  | some t =>
    let kept := fun (r : Access) => t.parked.any (fun q => q.tx == r.tx) || t.stalled.any fun q => q.tx == r.tx
    let answered := fun (o : Outst) => o.pieces.all fun p => p.reply.isSome || kept p.acc
    t.outs.all answered && t.results.isEmpty && t.hostPending.isEmpty && !slotBound (waitOf t) && !ownBuffered s slot &&
      !(core s (coreOf slot)).journal.any fun j =>
        j.2.slot == slot && !j.2.gone && (!j.2.ref || !j.2.reported) && j.2.code != 7

/-- Whether a thread could go on if it were resident: class 1 of R347. -/
def couldGo (t : Thread) : Bool :=
  t.status == .ready || retries t.status || match t.status with
    | .wait (.release _ _) => true
    | _ => false

/-- The bytes of a lane window, by offset in it (lane, then byte). -/
def laneBytes (s : State) (c : Nat) (t : Thread) : List (Nat × Byte) :=
  (List.range 16).flatMap fun l => (List.range (4 * t.lsz)).map fun i =>
    (l * 2048 + i, memByte s.mem (lanePlace c (l * 2048 + 4 * t.lbase + i)))

/-- A thread's own requests made under another slot's name. -/
def reslot (slot : Nat) (r : Access) : Access :=
  match r.agent with
  | .load _ => { r with agent := .load slot }
  | .flush c _ => { r with agent := .flush c slot }
  | _ => r

/-- A thread that waits on a core's inbox keeps its place in the order under another key (R175, R186). -/
def renameIb (s : State) (c a b : Nat) : State := modCore s c fun x => { x with ibWait := x.ibWait.map fun w => if w == a then b else w }

/-- R360: a saved context comes back in a slot. (DEDUCED, log entry 26) -/
def restore (s : State) (x : Saved) : Option State :=
  (fit s x.core x.thread.regs.length x.thread.lsz).map fun f =>
    let slot := f.1
    let piece := fun (p : Piece) => { p with acc := reslot slot p.acc }
    let t := { x.thread with
      rbase := f.2.1, lbase := f.2.2, saving := none, parked := x.thread.parked.map (reslot slot)
      stalled := x.thread.stalled.map (reslot slot)
      outs := x.thread.outs.map fun o => { o with pieces := o.pieces.map piece } }
    let cells := x.vregs.map fun v => (lanePlace x.core (v.1 + 4 * f.2.2), v.2)
    let s := writeWords { s with saved := s.saved.erase x } cells
    let s := renameIb (renameTimers s (awayKey x.thread) slot) x.core (awayKey x.thread) slot
    let mine := fun (e : Endpoint) => e.st == .swapped && e.slot == some (awayKey x.thread)
    let s := placeEps (setThr (cleanWindow (unspaced s slot) (coreOf slot) t.rbase t.regs.length) slot t) (cidOf s x.core) slot mine
    let s := if t.status = .parked then unpark s slot (fun _ => true) else resend s slot (!trapFirst t)
    t.pend.foldl (fun s _ => post s (.asyncTrapDelivery slot)) s

/-! ### Handler-slot reservations (R265) -/

/-- The handler slots that a job needs of each member (R265). -/
def handlerSlots (j : Job) : Nat := if jobOpc j = 4 ∨ !isGang j then 0 else fld j.c0 39 38 + 1

/-- The windows of a job's handlers (R271). -/
def handlerWindows (j : Job) : Nat × Nat := (8 * fld j.c0 37 34, 8 * fld j.c0 33 29)

/-- The slots that a core holds for a job. -/
def heldSlots (s : State) (c id : Nat) : Nat := ((core s c).reserved.filter fun r => r.job == id).length

/-- A slot reserved for a job's handlers, with what they take from the MGANG thread (R271). (DEDUCED, log entry 28) -/
def reserveFor (s : State) (c : Nat) (j : Job) (t : Thread) : Option State :=
  let w := handlerWindows j
  (fit s c w.1 w.2).map fun f =>
    let r : Reserved :=
      { slot := f.1, job := j.id, rsz := w.1, lsz := w.2, segs := t.segs, level := t.level, spt := t.spt, tvec := t.tvec,
        swid := t.swid, rbase := f.2.1, lbase := f.2.2, flotilla := j.flotilla }
    modCore s c fun x => { x with reserved := x.reserved ++ [r] }

/-- The MGANG waits of a core that still lack slots for a job they have joined, oldest first. -/
def gangWaits (s : State) (c : Nat) : List (Thread × Nat) :=
  let want := fun (t : Thread) => match waitOf t with
    | some (.mgang _ _ (some id)) => some (t, id)
    | _ => none
  sortBy (fun p => p.1.seqno)
    (((residents s c).map Prod.snd).filterMap want ++ ((s.saved.filter fun x => x.core == c).map Saved.thread).filterMap want)

/-- Reservations of a flotilla that has come back, to be made again on a core as slots free (R273, R361): flotilla and
reservation. -/
def owedSlots (s : State) (c : Nat) : List (Nat × Reserved) :=
  s.flotillas.flatMap fun f =>
    if f.2.suspended || f.2.next.isSome then [] else
      (f.2.shares.filter fun x => x.core == c).flatMap fun x => x.reserved.map fun r => (f.1, r)

/-- One owed reservation made, if its windows fit. -/
def reserveOwed (s : State) (c : Nat) (f : Nat) (r : Reserved) : Option State :=
  (fit s c r.rsz r.lsz).map fun w =>
    let s := modCore s c fun x => { x with reserved := x.reserved ++ [{ r with slot := w.1, rbase := w.2.1, lbase := w.2.2 }] }
    let share := fun (x : CoreShare) => if x.core = c then { x with reserved := x.reserved.erase r } else x
    match find s.flotillas f with
    | some y => { s with flotillas := put s.flotillas f { y with shares := y.shares.map share } }
    | none => s

/-- One reservation made, if some joined or resumed job lacks a slot that fits. -/
def grantReserve (s : State) (c : Nat) : Option State :=
  ((owedSlots s c).findSome? fun p => reserveOwed s c p.1 p.2).orElse fun _ =>
    (gangWaits s c).findSome? fun p =>
      match jobAt s (clusterOf c) p.2 with
      | some j => if heldSlots s c j.id < handlerSlots j then reserveFor s c j p.1 else none
      | none => none

/-- Whether a core still owes a joined or resumed job handler slots. -/
def lacksSlots (s : State) (c : Nat) : Bool :=
  !(owedSlots s c).isEmpty || (gangWaits s c).any fun p => match jobAt s (clusterOf c) p.2 with
    | some j => decide (heldSlots s c j.id < handlerSlots j)
    | none => false

/-! ### Giving slots (R347) -/

/-- A creation joins a core's spawn queue; the wait of a queue's head begins to be counted (R347).
(DESIGN CHOICE, log entry 11) -/
def joinQueue (s : State) (c : Nat) (q : Queued) : State :=
  postTimer (modCore s c fun x => { x with spawnQ := x.spawnQ ++ [q] }) (.headAged c)

/-- A creation leaves a core's spawn queue; the next head's wait is counted anew. -/
def leaveQueue (s : State) (c i : Nat) : State :=
  let s := modCore s c fun x => { x with spawnQ := x.spawnQ.eraseIdx i, aged := x.aged && i != 0 }
  if i != 0 then s
  else
    let s := dropTimer s (.headAged c)
    if (core s c).spawnQ.isEmpty then s else postTimer s (.headAged c)

/-- A creation of a spawn queue starts, if its windows fit. -/
def startQueued (s : State) (c : Nat) (p : Queued × Nat) : Option State :=
  match p.1 with
  | .spawn r => startSpawn (leaveQueue s c p.2) c r
  | .snap d i => startSnap (leaveQueue s c p.2) c d i

/-- The head of a core's spawn queue, or the next entry that fits, starts (classes 3 and 4).
(DESIGN CHOICE, log entry 11) -/
def grantQueue (s : State) (c : Nat) : Option State := (core s c).spawnQ.zipIdx.findSome? (startQueued s c)

/-- A head that has waited its 4,096 cycles starts ahead of classes 1 and 2. -/
def grantAged (s : State) (c : Nat) : Option State :=
  if (core s c).aged then ((core s c).spawnQ.zipIdx.take 1).findSome? (startQueued s c) else none

/-- Snapshots that the completion unit holds for a core join its spawn queue as entries free (class 4). -/
def refillQueue (s : State) (c : Nat) : Nat → State
  | 0 => s
  | n + 1 =>
    match (core s c).heldSnaps with
    | [] => s
    | (d, i) :: rest =>
      if (core s c).spawnQ.length < 8 then
        refillQueue (joinQueue (modCore s c fun x => { x with heldSnaps := rest }) c (.snap d i)) c n
      else s

/-- The saved contexts of a core whose waits have ended, by when they ended (class 1). -/
def wokenHere (s : State) (c : Nat) : List Saved := sortBy Saved.woke (s.saved.filter fun x => x.core == c && x.wakeDue && !x.held)

/-- The core that a thread table entry names among a flotilla's clusters. -/
def entryCore (ks : List Nat) (e : List Word) : Nat :=
  ks.getD (fld (e.getD 0 0) 15 8) 0 * 8 + fld (e.getD 0 0) 2 0

/-- Whether a flotilla takes over from another, slot by slot (R361). -/
def takesOver (s : State) (g : Nat) : Bool := s.flotillas.any fun f => f.2.next == some g

/-- Whether a tenant change has left a table entry that is to be created on a core (R344, R361). -/
def entryWaits (s : State) (c : Nat) : Bool :=
  s.flotillas.any fun f => !f.2.suspended && !takesOver s f.1 && f.2.entries.any fun e => entryCore f.2.clusters e == c

/-- Whether a creation waits for a slot on a core. -/
def creationWaits (s : State) (c : Nat) : Bool :=
  !(wokenHere s c).isEmpty || lacksSlots s c || !(core s c).spawnQ.isEmpty || !(core s c).heldSnaps.isEmpty || entryWaits s c

/-- R359: a context's record is free again: creations of its partition that wait for room on other cores go on. -/
def recordFreed (s : State) (c : Nat) : State :=
  let cs := (s.cores.map Prod.fst).filter fun k => k != c && cidOf s k == cidOf s c && creationWaits s k
  postAll s (cs.map .slotGrant)

/-- One creation by R347. -/
def grantOne (s : State) (c : Nat) : Option State :=
  (grantAged s c).orElse fun _ =>
    (((wokenHere s c).findSome? (restore s)).map fun s => recordFreed s c).orElse fun _ =>
      (grantReserve s c).orElse fun _ => grantQueue s c

/-- Creations for as long as one fits. -/
def grantAll (s : State) (c : Nat) : Nat → State
  | 0 => s
  | n + 1 =>
    match grantOne s c with
    | some s' => grantAll (refillQueue s' c 8) c n
    | none => s

/-! ### Room for creations (R359) -/

/-- R359: the threads that may be saved to make room: sleepers, TNEXT waiters, then PARKED threads, longest first. -/
def roomCandidates (s : State) (c : Nat) : List Nat :=
  let rs := (residents s c).filter fun p => p.2.saving.isNone
  let pick := fun (f : Thread → Bool) => (sortBy (fun p => p.2.seqno) (rs.filter fun p => f p.2)).map Prod.fst
  let tnext := fun (t : Thread) => match t.status with
    | .wait (.tnext _ _ _) => true
    | _ => false
  pick (fun t => t.status == .wait .sleep) ++ pick tnext ++ pick fun t => t.status == .parked

/-- R359: one thread begins to be saved for a creation that waits, unless a save is under way. -/
def makeRoom (s : State) (c : Nat) : State :=
  if (residents s c).any fun p => p.2.saving.isSome then s
  else match roomCandidates s c with
    | k :: _ => beginSave s k false
    | [] => s

end Sys2Proof.Machine
end

