-- ==== Sys2Proof/Machine/Launch.lean ====
section
/-! DEFINITION. The launch scheduler (spec/22_scheduling.md R338 to R346): reading and writing a partition's memory by
an agent of the I/O die, launch descriptors, queues, readiness and placement. -/

namespace Sys2Proof.Machine

/-! ### A partition's memory, seen by an agent without a cluster port -/

/-- The translation of an address of a partition, if present. -/
def translate (s : State) (cid va : Nat) : Option TlbEntry :=
  match (walkVa s 0 cid va).2 with
  | .ok e => some e
  | .error _ => none

/-- The newest bytes of a physical range within one line at its home (R39, R45). -/
def homeBytes (s : State) (home : Option Nat) (cid pa n : Nat) : List Byte :=
  match (lineAt s (homeSlice home pa) cid (pa / 128)).bind HomeLine.data with
  | some d => (d.drop (pa % 128)).take n
  | none => msBytes s cid pa n

/-- The key under which a translated access stands (R31). -/
def keyCid (e : TlbEntry) (cid : Nat) : Nat := if e.common then 0 else cid

/-- What a visit to a line is for: a read, a write, or an atomic of scope `.sy` (R119, R345). -/
inductive VisitOp where
  | read | write | sync
  deriving DecidableEq, Repr

/-- A visit that an agent of the I/O die makes to bytes of one line, with what its walk has met; of no bytes where its walk
ends without a translation. `fills`: a line that its home does not hold is brought into the L2 for it (R38). -/
structure Visit where
  h : Nat
  cid : Nat
  pa : Nat
  n : Nat
  op : VisitOp
  uncached : Bool
  fills : Bool := false
  got : Got
  deriving DecidableEq, Repr

/-- The visits to a range of a partition's memory. -/
def visitsTo (s : State) (cid va n : Nat) (op : VisitOp) : List Visit :=
  (linePieces (n / 128 + 2) va n).map fun p =>
    match walkVa s 0 cid p.1 with
    | (got, .ok e) =>
      let pa := e.pa + p.1 % e.size
      { h := homeSlice e.home pa, cid := keyCid e cid, pa := pa, n := p.2, op := op, uncached := e.cache == 2,
        fills := e.cache != 2, got := got }
    | (got, .error _) => { h := 0, cid := cid, pa := 0, n := 0, op := op, uncached := false, got := got }

/-- The visits that a walk has made to the lines of its tables, which are reads like others (R110, R119, R369). -/
def tableVisits (got : Got) : List Visit :=
  got.reads.map fun q =>
    { h := homeSlice none q.2, cid := q.1, pa := q.2, n := 8, op := .read, uncached := true, got := .none }

/-- Some visits, each after those of its walk. -/
def withTables (vs : List Visit) : List Visit := vs.flatMap fun v => tableVisits v.got ++ [v]

/-- Whether a home's copy of a visited line is to be brought into the L2 (R38). -/
def missesAt (s : State) (v : Visit) : Bool :=
  v.n != 0 && v.fills && ((lineAt s v.h v.cid (v.pa / 128)).bind HomeLine.data).isNone

/-- Whether a visit must wait for what its line awaits (R110, R139). -/
def heldUp (s : State) (v : Visit) : Bool :=
  v.n != 0 && ((lineAt s v.h v.cid (v.pa / 128)).map fun x => lineBusy x || (x.towing != 0 && v.op != .read)).getD false

/-- Whether a visit must wait for a way of its line's set (R38). -/
def wantsWay (s : State) (v : Visit) : Bool := missesAt s v && (wayFor s v.h (v.pa / 128)).2.isNone

/-- The halves that the host must give up or share before a visit (R119). -/
def halvesFor (s : State) (v : Visit) : List Nat :=
  if v.n = 0 then []
  else match lineAt s v.h v.cid (v.pa / 128) with
  | some x => (halvesOf v.pa v.n).filter fun k => halfState x k == 2 || (halfState x k == 1 && v.op == .sync)
  | none => []

/-- The host is asked for the halves of a visit. -/
def recallHalves (s : State) (v : Visit) : State :=
  let ask := fun (k : Nat) => ({ half := k, inv := v.op != .read, blocking := true, done := none } : BackInv)
  modLine s v.h v.cid (v.pa / 128) fun l => { l with bi := l.bi ++ (halvesFor s v).map ask }

/-- A read that a home sends to memory for a line that it does not hold: counted (R53), and, but for an uncached page,
allocated in the memory-side cache (R40). -/
def memAsk (s : State) (uncached : Bool) (cid line : Nat) : State :=
  if uncached then countAt s cid line else memRead s cid line

/-- A line that a home does not hold and nothing is awaited for is read from memory into a way of its L2, where a way can be
had (R38, R39). -/
def bringLine (s : State) (h cid line : Nat) : State :=
  if ((lineAt s h cid line).map fun x => x.data.isSome || lineBusy x).getD false then s
  else match wayFor s h line with
  | (s, some w) =>
    let s := memRead (withLine s h cid line) cid line
    modLine s h cid line fun l => { l with way := w, data := some (msPeek s cid line), lost := [] }
  | (s, none) => s

/-- A visit noted: its walk, and its read made where the home does not hold the line (R38, R40, R53, R371). -/
def noteVisit (s : State) (v : Visit) : State :=
  let s := noteWalk s 0 v.got
  let s := if v.op = .write then s else meet s v.pa v.n
  if missesAt s v then bringLine s v.h v.cid (v.pa / 128)
  else if v.n != 0 && v.op != .write && ((lineAt s v.h v.cid (v.pa / 128)).bind HomeLine.data).isNone then memAsk s v.uncached v.cid (v.pa / 128)
  else s

/-- Whether some visits cannot be made now: a line is busy, the host has bytes of it, or a way is wanted.
(DEDUCED, log entry 27) -/
def notFree (s : State) (vs : List Visit) : Bool :=
  (withTables vs).any fun v => heldUp s v || wantsWay s v || !(halvesFor s v).isEmpty

/-- The host is asked for what some visits need, where their lines are not busy, and ways are cleared for lines that are to
come (R38). (DEDUCED, log entry 27) -/
def recallAll (s : State) (vs : List Visit) : State :=
  let clear := fun (s : State) (v : Visit) => if missesAt s v then (wayFor s v.h (v.pa / 128)).1 else s
  (withTables vs).foldl clear (((withTables vs).filter fun v => !heldUp s v).foldl recallHalves s)

/-- What is done once some visits can be made: else the host is asked, and the event comes about again.
(DEDUCED, log entry 27) -/
def whenFree (s : State) (vs : List Visit) (e : Event) (act : State → State) : State :=
  if notFree s vs then post (recallAll s vs) e else act s

/-- What an agent of the I/O die does with some lines: once none of them is busy and the host holds none of their bytes;
else the host is asked, and the event comes about again (R110, R119). (DEDUCED, log entry 27) -/
def visit (s : State) (vs : List Visit) (e : Event) (act : State → State) : State :=
  whenFree s vs e fun s => act (vs.foldl noteVisit s)

/-- Whether the event that makes visits may come about now. -/
def mayVisit (s : State) (vs : List Visit) : Bool := !(withTables vs).any (heldUp s)

/-- A doubleword of a partition's memory, at a multiple of 8. (DEDUCED, log entry 27) -/
def partWord (s : State) (cid va : Nat) : Option Word :=
  match translate s cid va with
  | some e =>
    let pa := e.pa + va % e.size
    if e.r && !inCtxArea s cid va && !poisoned s pa 8 then some (word (leNat (homeBytes s e.home (keyCid e cid) pa 8))) else none
  | none => none

/-- Consecutive doublewords, if each can be read. -/
def partWords (s : State) (cid va n : Nat) : Option (List Word) :=
  (List.range n).foldr (fun k acc => match partWord s cid (va + 8 * k), acc with
    | some w, some ws => some (w :: ws)
    | _, _ => none) (some [])

/-- The bytes of a write put where its home keeps them: its copy of a cached page's line, or memory; a home's copy of an
uncached page's line is written back and dropped, or, while the host holds a half of it, written through (R28, R30, R39). -/
def putHome (s : State) (uncached : Bool) (h cid line : Nat) (cells : List (Nat × Byte)) : State :=
  match lineAt s h cid line with
  | none => if uncached then memUncached s cid line cells else memWrite s cid line cells
  | some x => match uncached, x.data with
    | false, some d => modLine s h cid line fun l => { l with data := some (mergeCells d cells), dirty := true }
    | false, none => memWrite s cid line cells
    | true, d =>
      let s := regain (if x.dirty then memBack s cid line (d.getD []) else s) x
      let s := memUncached s cid line cells
      if x.hh0 == 0 && x.hh1 == 0 && x.bi.isEmpty && x.towing == 0 then delLine s h cid line
      else modLine s h cid line fun l => { l with data := d.map fun b => mergeCells b cells, dirty := false, lost := [] }

/-- A write performed whole at its home, every copy of the line probed and shared halves of the host invalidated (R30, R44,
R64, R119): the write of an agent that is not timed against others. Bytes of one line, which the L2 takes where it does not
hold it (R38). (DEDUCED, log entry 27) -/
def homeWrite (s : State) (uncached : Bool) (home : Option Nat) (cid pa : Nat) (bs : List Byte) : State :=
  let h := homeSlice home pa
  let line := pa / 128
  let s := if uncached then s else bringLine s h cid line
  let cells := cellsAt pa bs
  let at_ := lineAt s h cid line
  let inL2 := !uncached && (at_.bind HomeLine.data).isSome
  let p := poisonCells s (homeGranule (!inL2) line) line cells
  let logged := fun (s : State) (g : Nat) => mergeError s g (storeCode (!inL2) g) 0 0 h cid (dieOfCluster h)
  let s := p.2.foldl logged p.1
  let s := match at_ with
    | none => s
    | some x =>
      let bis : List BackInv := ((halvesOf pa bs.length).filter fun k => halfState x k == 1).map fun k =>
        { half := k, inv := true, blocking := false, done := none }
      let s := modLine s h cid line fun l => { l with mode := 0, ptrs := [], clus := [], bi := l.bi ++ bis }
      let s := modSlice s h fun y => { y with vecs := y.vecs.filter fun v => !(v.1 == cid && v.2 == line) }
      (recordedCores x).foldl (fun s c => l1Probe s c cid line) s
  let s := (holdersOf s h cid line).foldl (fun s o => (basinProbe s o.core o.clus o.sline (cellMask cells) false).1) s
  putHome s uncached h cid line cells

/-- Bytes written to a partition's memory, within one line; none where the translation is absent or denies write. -/
def partWrite (s : State) (cid va : Nat) (bs : List Byte) : Option State :=
  match translate s cid va with
  | some e =>
    let pa := e.pa + va % e.size
    if e.w && !inHotArea s pa && !inCtxArea s cid va then some (homeWrite s (e.cache == 2) e.home (keyCid e cid) pa bs) else none
  | none => none

/-- A doubleword written to a partition's memory. (DEDUCED, log entry 27) -/
def partStore (s : State) (cid va : Nat) (w : Word) : Option State := partWrite s cid va (leBytes 8 w.toNat)

/-- 1 added to a doubleword of a partition's memory, an atomic of scope `.sy`, where its page lets it be written (R345). -/
def partBump (s : State) (cid va : Nat) : State :=
  match translate s cid va with
  | some e =>
    let pa := e.pa + va % e.size
    let old := leNat (homeBytes s e.home (keyCid e cid) pa 8)
    if e.w && !inHotArea s pa && !inCtxArea s cid va && !poisoned s pa 8 then homeWrite s (e.cache == 2) e.home (keyCid e cid) pa (leBytes 8 (old + 1))
    else s
  | none => s

/-! ### The launch descriptor (R338) -/

/-- A launch's queue. -/
def Launch.q (l : Launch) : Nat := fld (l.desc.getD 0 0) 63 61
/-- The clusters it asks for. -/
def Launch.ncl (l : Launch) : Nat := fld (l.desc.getD 0 0) 60 52
/-- How many dependences it has. -/
def Launch.ndep (l : Launch) : Nat := fld (l.desc.getD 0 0) 51 49
/-- Whether all clusters lie on one die. -/
def Launch.oneDie (l : Launch) : Bool := bitOf (l.desc.getD 0 0) 48
/-- The die it names, if it names one. -/
def Launch.die_ (l : Launch) : Option Nat := if bitOf (l.desc.getD 0 0) 47 then some (fld (l.desc.getD 0 0) 46 45) else none
/-- Whether it takes a sluice tree. -/
def Launch.tree (l : Launch) : Bool := bitOf (l.desc.getD 0 0) 44
/-- Its number of initial threads. -/
def Launch.nt (l : Launch) : Nat := fld (l.desc.getD 0 0) 41 24

/-- R178: whether a template's sizes are legal. -/
def windowsOk (rsz lsz : Nat) : Bool :=
  rsz % 8 == 0 && decide (8 ≤ rsz) && decide (rsz ≤ 112) && lsz % 8 == 0 && decide (lsz ≤ 128)

/-- R338: whether a 16-bit template in the layout of TS.SPT is legal, its reserved bit included. -/
def templateOk (w : Nat) : Bool := w / 128 % 2 == 0 && windowsOk (w % 128) (w / 256 % 256)

/-- R338: whether a word of a descriptor breaks its table. -/
def descWordBad (d : List Word) (i : Nat) : Bool :=
  let w := d.getD i 0
  let w0 := d.getD 0 0
  let ndep := fld w0 51 49
  match i with
  | 0 =>
    let ncl := fld w 60 52
    let nt := fld w 41 24
    ncl == 0 || decide (256 < ncl) || decide (4 < ndep) || (bitOf w 47 && !bitOf w 48) || (!bitOf w 47 && fld w 46 45 != 0) ||
      fld w 43 42 != 0 || nt == 0 || decide (512 * ncl < nt) || fld w 23 0 != 0
  | 1 => fld w 63 52 != 0 || fld w 2 0 != 0
  | 2 => fld w 63 52 != 0 || fld w 2 0 != 0
  | 3 => fld w 63 52 != 0 || fld w 2 0 != 0
  | 4 => fld w 63 52 != 0 || fld w 2 0 != 0
  | 5 => fld w 63 32 != 0 || !templateOk (fld w 31 16) || !templateOk (fld w 15 0)
  | 14 => w != 0
  | 15 => w != 0
  | i =>
    let k := (i - 6) / 2
    let id := d.getD (6 + 2 * k) 0
    if ndep ≤ k then w != 0
    else if i % 2 = 0 then
      if bitOf w 63 then fld w 62 52 != 0 || fld w 2 0 != 0 else fld w 62 32 != 0 || fld w 31 0 == 0
    else !bitOf id 63 && w != 0

/-- The first word of a descriptor that breaks R338. -/
def descBad (d : List Word) : Option Nat := (List.range 16).find? (descWordBad d)

/-! ### Queues (R339) -/

/-- A launch with its identifier enters its queue, if that has room (R339). -/
def enterLaunch (s : State) (cid : Nat) (desc : List Word) : Option (State × Nat) :=
  match part s cid with
  | none => none
  | some p =>
    let q := fld (desc.getD 0 0) 63 61
    let l := (find p.queues q).getD []
    if l.length < 256 && !p.halted then
      let next := (p.launchCtr + 1) % 2 ^ 32
      let id := if next = 0 then 1 else next
      let p := { p with
        launchCtr := id, wrapped := p.wrapped || decide (next = 0)
        queues := put p.queues q (l ++ [{ id := id, desc := desc, threads := [], block := [], ready := false, read := false }]) }
      some (post { s with parts := put s.parts cid p } (.launchPlacement cid), id)
    else none

/-! ### Readiness (R342) -/

/-- Whether a launch is queued or running in its partition. -/
def launchAlive (s : State) (cid id : Nat) : Bool :=
  ((part s cid).map fun p => p.queues.any fun q => q.2.any fun l => l.id == id).getD false ||
    s.flotillas.any fun f => f.2.cid == cid && f.2.launch.id == id

/-- Whether dependence k of a launch holds; one on a counter whose home must first have a half back from the host holds as it
did at the last reading (R342). (DEDUCED, log entry 27) -/
def depHolds (s : State) (cid : Nat) (p : Part) (l : Launch) (k : Nat) : Bool :=
  let a := l.desc.getD (6 + 2 * k) 0
  let thr := l.desc.getD (7 + 2 * k) 0
  if bitOf a 63 then
    let vs := visitsTo s cid (fld a 51 0) 8 .read
    if notFree s vs then l.ready
    else ((partWord s cid (fld a 51 0)).map fun v => decide (thr.toNat ≤ v.toNat)).getD false
  else
    let id := fld a 31 0
    (p.wrapped || decide (id ≤ p.launchCtr)) && !launchAlive s cid id

/-- Whether a launch is ready: every dependence holds (R342). -/
def launchReady (s : State) (cid : Nat) (p : Part) (l : Launch) : Bool := (List.range l.ndep).all (depHolds s cid p l)

/-- Which launches of a partition are ready, as the counters' last reading has it. -/
def markReady (s : State) (cid : Nat) : State :=
  match part s cid with
  | none => s
  | some p => modPart s cid fun x => { x with queues := x.queues.map fun q => (q.1, q.2.map fun l => { l with ready := launchReady s cid p l }) }

/-- Whether a launch depends on its own identifier, which can never hold. -/
def selfDependent (l : Launch) : Bool :=
  (List.range l.ndep).any fun k => let a := l.desc.getD (6 + 2 * k) 0; !bitOf a 63 && fld a 31 0 == l.id

/-! ### Considering a launch (R344) -/

/-- A launch taken out of its partition's queues. -/
def dequeue (s : State) (cid id : Nat) : State :=
  modPart s cid fun p => { p with queues := p.queues.map fun q => (q.1, q.2.filter fun l => l.id != id) }

/-- R345, R346: a launch that runs no thread retires with BAD. -/
def retireBad (s : State) (cid : Nat) (l : Launch) : State :=
  let s := dequeue s cid l.id
  let rva := fld (l.desc.getD 4 0) 51 0
  let s := if rva = 0 then s else (partStore s cid rva (word (l.id * 2 ^ 32 + 2))).getD s
  post s (.counterPoll cid)

/-- R18: the first failing check of a descriptor, as the word that it names. -/
def segBad (g : Seg) : Option Nat :=
  let k := g.kind
  if fld g.s0 63 60 ≠ 0 ∨ fld g.s0 2 0 ≠ 0 ∨ (k = .null ∧ (fld g.s0 59 55 ≠ 0 ∨ g.base ≠ 0)) then some 0
  else if fld g.s1 63 60 ≠ 0 ∨ (g.tgt ≠ 0 ∧ k ≠ .remc ∧ k ≠ .dom) ∨ (k = .dom ∧ 64 ≤ g.tgt) ∨ kindSize k < g.base + g.limit then some 1
  else none

/-- Whether a thread table entry is legal for a launch. -/
def entryOk (l : Launch) (e : List Word) : Bool :=
  let w := e.getD 0 0
  fld w 31 16 == 0 && fld w 7 3 == 0 && decide (fld w 15 8 < l.ncl)

/-- Words cut into pieces of n. -/
def chunks (n : Nat) : Nat → List Word → List (List Word)
  | 0, _ => []
  | k + 1, ws => ws.take n :: chunks n k (ws.drop n)

/-- R344: a launch with its thread table and segment block read and checked; none if they cannot be read or are
invalid. -/
def readLaunch (s : State) (cid : Nat) (l : Launch) : Option Launch :=
  if l.read then some l
  else
    match partWords s cid (fld (l.desc.getD 1 0) 51 0) (6 * l.nt), partWords s cid (fld (l.desc.getD 2 0) 51 0) 16 with
    | some ts, some bl =>
      let es := chunks 6 l.nt ts
      let segs := chunks 2 8 bl
      if es.all (entryOk l) && segs.all fun g => (segBad { s0 := g.getD 0 0, s1 := g.getD 1 0 }).isNone then
        some { l with threads := es, block := bl, read := true }
      else none
    | _, _ => none

/-! ### Placement (R344) -/

/-- The clusters of a partition that no flotilla holds, lowest first. -/
def freeClusters (s : State) (p : Part) : List Nat := (sortBy id p.clusters).filter fun k => (cluster s k).flotilla == 0

/-- The window sizes of a launch's threads. -/
def launchWindows (l : Launch) : Nat × Nat := (fld (l.desc.getD 5 0) 6 0, fld (l.desc.getD 5 0) 15 8)

/-- R344: a segment of the block as a thread of flotilla index ci receives it: a REMC target counts clusters on. -/
def placedSeg (l : Launch) (ks : List Nat) (ci : Nat) (g : List Word) : Seg :=
  let seg : Seg := { s0 := g.getD 0 0, s1 := g.getD 1 0 }
  if seg.kind = .remc then
    let tgt := ks.getD ((ci + seg.tgt) % l.ncl) 0
    { seg with s1 := word (tgt * 2 ^ 52 + seg.limit) }
  else seg

/-- R344: one initial thread created from its table entry, in the lowest slot still empty of its core, if its windows fit. -/
def placeThread (s : State) (f : Nat) (l : Launch) (ks : List Nat) (e : List Word) : Option State :=
  let c := entryCore ks e
  let w := launchWindows l
  (fit s c w.1 w.2).map fun x =>
    let ci := fld (e.getD 0 0) 15 8
    let t : Thread :=
      { blank with
        pc := e.getD 1 0, swid := fld (e.getD 0 0) 63 32, regs := newRegs w.1 (e.drop 2), rbase := x.2.1, lbase := x.2.2,
        lsz := w.2, segs := (chunks 2 8 l.block).map (placedSeg l ks ci), spt := word (fld (l.desc.getD 5 0) 31 16),
        tvec := (core s c).dtv, flotilla := f }
    beginThread s x.1 t

/-- Whether a cluster can be index i of a launch's flotilla: each thread of that index finds a slot on it (R344). -/
def hosts (s : State) (l : Launch) (i k : Nat) : Bool :=
  let es := l.threads.filter fun e => fld (e.getD 0 0) 15 8 == i
  (es.foldl (fun s e => s.bind fun s => placeThread s 0 l (List.replicate l.ncl k) e) (some s)).isSome

/-- The lowest of some clusters, in their order, that can be the indices of a flotilla from i on. -/
def lowestHosts (s : State) (l : Launch) : Nat → Nat → List Nat → Option (List Nat)
  | 0, _, _ => some []
  | n + 1, i, ks =>
    match ks.dropWhile fun k => !hosts s l i k with
    | [] => none
    | k :: rest => (lowestHosts s l n (i + 1) rest).map (k :: ·)

/-- The lower of two choices of clusters, the first where they are the same. -/
def lowerOf (a b : List Nat × Option Nat) : List Nat × Option Nat := if b.1 < a.1 then b else a

/-- The lowest of some free clusters that a launch takes, with the lowest tree index that is free on every die of theirs.
(DEDUCED, log entry 27) -/
def chooseAmong (s : State) (l : Launch) (free : List Nat) : Option (List Nat × Option Nat) :=
  if l.tree then
    let with_ := fun (t : Nat) =>
      (lowestHosts s l l.ncl 0 (free.filter fun k => (find (die s (dieOfCluster k)).treeOwner t).isNone)).map fun ks => (ks, some t)
    match (List.range 16).filterMap with_ with
    | [] => none
    | x :: xs => some (xs.foldl lowerOf x)
  else (lowestHosts s l l.ncl 0 free).map fun ks => (ks, none)

/-- The clusters and tree that a launch takes now, if any: the lowest, on one die if so asked, on which its threads fit.
(DEDUCED, log entry 27) -/
def chooseClusters (s : State) (p : Part) (l : Launch) : Option (List Nat × Option Nat) :=
  let free := freeClusters s p
  if l.oneDie then
    let dies := match l.die_ with
      | some d => [d]
      | none => [0, 1, 2, 3]
    dies.findSome? fun d => chooseAmong s l (free.filter fun k => dieOfCluster k == d)
  else chooseAmong s l free

/-- Initial threads created in table order, for as long as each fits: none where one does not. -/
def placeThreads (s : State) (f : Nat) (l : Launch) (ks : List Nat) : Option State :=
  l.threads.foldl (fun s e => s.bind fun s => placeThread s f l ks e) (some s)

/-- A set of clusters as a permission column (R25). -/
def clusterMask (ks : List Nat) : BitVec 256 := ks.foldl (fun m k => m ||| BitVec.ofNat 256 (2 ^ k)) 0

/-- The sluices whose timers run for a core (R299). -/
def sluiceTimers (s : State) (c : Nat) : List (Bool × Nat) := s.timers.filterMap fun e => match e with
  | .sluiceTimeout x t i => if x = c then some (t, i) else none
  | _ => none

/-- No timer of a sluice runs for a core any more. -/
def stopSluices (s : State) (c : Nat) : State := (sluiceTimers s c).foldl (fun s p => dropTimer s (.sluiceTimeout c p.1 p.2)) s

/-- R344 step 2: the clusters' permission tables, sluice registers and episodes for a flotilla.
(DEDUCED, log entry 22) -/
def takeClusters (s : State) (f : Nat) (p : Part) (ks : List Nat) (tree : Option Nat) : State :=
  let one := fun (s : State) (k : Nat) =>
    let s := modCluster s k fun x => { x with flotilla := f, acc := clusterMask ks, msg := clusterMask p.clusters, sluices := [] }
    forEach (List.range 8) (fun s i => modCore (stopSluices s (k * 8 + i)) (k * 8 + i) fun x => { x with slc := 0, slto := 0, ctx := none }) s
  let s := forEach ks one s
  let s := forEach (ks.map dieOfCluster).eraseDups (fun s d => modTbl s d fun x => { x with
    evict := del x.evict ((cluster s (ks.headD 0)).cid), fails := del x.fails ((cluster s (ks.headD 0)).cid) }) s
  match tree with
  | none => s
  | some t => forEach (ks.map dieOfCluster).eraseDups (fun s d => modDie s d fun x =>
      { x with treeOwner := put x.treeOwner t f, trees := del x.trees t }) s

/-- R344: a launch placed on clusters as a flotilla, in one step; none where a table entry finds no fitting slot. -/
def placeLaunch (s : State) (cid : Nat) (p : Part) (l : Launch) (ks : List Nat) (tree : Option Nat) : Option State :=
  let f := s.nextFlotilla
  let s := takeClusters (dequeue s cid l.id) f p ks tree
  let fl : Flotilla :=
    { cid := cid, launch := l, clusters := ks, tree := tree, term := false, sf := false, suspended := false, next := none,
      entries := [], shares := [], sluices := [] }
  placeThreads { s with flotillas := put s.flotillas f fl, nextFlotilla := f + 1 } f l ks

/-- The visits of a launch's status record, and of its table and segment block. -/
def launchVisits (s : State) (cid : Nat) (l : Launch) : List Visit :=
  visitsTo s cid (fld (l.desc.getD 1 0) 51 0) (48 * l.nt) .read ++ visitsTo s cid (fld (l.desc.getD 2 0) 51 0) 128 .read

/-- The visit of a launch's status record, if it has one. -/
def recordVisits (s : State) (cid : Nat) (l : Launch) : List Visit :=
  let rva := fld (l.desc.getD 4 0) 51 0
  if rva = 0 then [] else visitsTo s cid rva 8 .write

/-- The scheduler's next step once lines that it visits are free; until then its counters are polled again (R342). -/
def onceFree (s : State) (cid : Nat) (vs : List Visit) (act : State → State) : State × Bool :=
  if notFree s vs then (postTimer (recallAll s vs) (.counterPoll cid), false)
  else (act (vs.foldl noteVisit s), true)

/-- A launch placed, if clusters are free; else kept as it has been read. -/
def placeRead (s : State) (cid : Nat) (p : Part) (l l' : Launch) : Option State :=
  let keep := modPart s cid fun p => { p with queues := p.queues.map fun q => (q.1, q.2.map fun x => if x.id == l.id then l' else x) }
  match (chooseClusters s p l').bind fun c => placeLaunch s cid p l' c.1 c.2 with
  | some s => some s
  | none => if l.read then none else some keep

/-- What considering the queues comes to (R343): a launch placed, read or retired, with whether the queues are looked at
again; or nothing. -/
def placeStep (s : State) (cid : Nat) : Option (State × Bool) :=
  match part s cid with
  | none => none
  | some p =>
    let bad := fun (l : Launch) => onceFree s cid (recordVisits s cid l) fun s => retireBad s cid l
    match ((List.range 8).flatMap fun q => (find p.queues q).getD []).find? selfDependent with
    | some l => some (bad l)
    | none =>
      let first := (List.range 8).findSome? fun q => ((find p.queues q).getD []).find? (launchReady s cid p)
      first.bind fun l =>
        if l.read then (placeRead s cid p l l).map fun s => (s, true)
        else
          let vs := launchVisits s cid l
          if notFree s vs then some (onceFree s cid vs id)
          else match readLaunch s cid l with
            | none => some (bad l)
            | some l' => (placeRead (vs.foldl noteVisit s) cid p l l').map fun s => (s, true)

/-- Placement for as long as something comes of it. -/
def placeAll (s : State) (cid : Nat) : Nat → State
  | 0 => s
  | n + 1 => match placeStep s cid with
    | some (s', true) => placeAll (markReady s' cid) cid n
    | some (s', false) => s'
    | none => s

/-- The event counters that queued launches of a partition wait on. -/
def watchedCounters (s : State) (cid : Nat) : List Nat :=
  ((part s cid).map fun p => p.queues.flatMap fun q => q.2.flatMap fun l =>
    ((List.range l.ndep).filter fun k => bitOf (l.desc.getD (6 + 2 * k) 0) 63).map fun k => fld (l.desc.getD (6 + 2 * k) 0) 51 0).getD []

/-- LAUNCH_PLACEMENT and COUNTER_POLL: the scheduler reads the counters of waiting launches and places what it can
(R342, R343); it reads the counters again within 10 microseconds. -/
def consider (s : State) (cid : Nat) : State :=
  let ctrs := watchedCounters s cid
  let s := (ctrs.flatMap fun a => visitsTo s cid a 8 .read).foldl (fun s v => noteVisit (if heldUp s v then s else recallHalves s v) v) s
  let s := placeAll (markReady s cid) cid 4096
  if ctrs.isEmpty then s else postTimer s (.counterPoll cid)

end Sys2Proof.Machine
end

