-- ==== Sys2Proof/Machine/Towline.lean ====
section
/-! DEFINITION. The towline instructions (spec/09_towline.md R134, R145, R147 to R151). -/

namespace Sys2Proof.Machine

/-- A towline result word: a status over a handle (R148). -/
def towWord (status hd : Nat) : Word := word (status * 2 ^ 56 + hd)

/-- The descriptor that a handle names for a partition (R132). -/
def towFor (s : State) (cid hd : Nat) : Option Tow := (towDesc s hd).filter fun t => t.cid == cid

/-- A descriptor written. -/
def setTow (s : State) (hd : Nat) (t : Tow) : State := modDie s (hd / 64) fun d => { d with tows := put d.tows (hd % 64) t }

/-- R145: every record and count of a towline freed at every slice, with what waits there to be sent for it. -/
def freeTowRecords (s : State) (hd : Nat) : State :=
  { s with slices := s.slices.map fun h => (h.1, { h.2 with
      lines := h.2.lines.map fun l => { l with tows := l.tows.filter fun t => t.1 != hd }
      tows := h.2.tows.filter fun r => r.handle != hd
      counts := del h.2.counts hd
      writes := h.2.writes.filter fun w => w.handle != hd
      steps := del h.2.steps hd
      dueTows := h.2.dueTows.filter fun t => t.2.2.1 != hd }) }

/-- The clusters that words 1 to 4 of a block name (R134). -/
def blockClusters (blk : List Word) : List Nat :=
  (List.range 256).filter fun k => bitOf (blk.getD (1 + k / 64) 0) (k % 64)

/-- R134: the first block word of 1 to 4 that names a cluster outside the flotilla, or 1 for an empty set. -/
def badSet (blk : List Word) (mine : List Nat) : Option Nat :=
  if (blockClusters blk).isEmpty then some 1
  else ((blockClusters blk).find? fun k => !mine.contains k).map fun k => 1 + k / 64

/-- R134: one range of a block checked: its fields, its segment, and the ranges before it. (DEDUCED, log entry 23) -/
def blockRange (blk : List Word) (k : Nat) (before : List (Nat × Nat)) : Act (Nat × Nat) := do
  let w := blk.getD (5 + 2 * k) 0
  let l := blk.getD (6 + 2 * k) 0
  if fld w 60 52 ≠ 0 then trap 0x1A (word (5 + 2 * k))
  let len := fld l 51 0
  if fld l 63 52 ≠ 0 ∨ len = 0 ∨ len % 128 ≠ 0 then trap 0x1A (word (6 + 2 * k))
  let r ← address (fld w 63 61) .towRange (word (fld w 51 0)) len 128
  if before.any fun g => meets g.1 g.2 r.addr len then trap 0x1A (word (5 + 2 * k))
  return (r.addr, len)

/-- R134: the ranges of a block, in order. -/
def blockRanges (blk : List Word) : Nat → Act (List (Nat × Nat))
  | 0 => return []
  | k + 1 => do
    let before ← blockRanges blk k
    return before ++ [← blockRange blk k before]

/-- The clusters of a thread's flotilla. -/
def flotillaClusters (s : State) (t : Thread) : List Nat := ((find s.flotillas t.flotilla).map fun f => f.clusters).getD []

/-- The other towlines loaded in a cluster's port (R133). -/
def loadedTows (s : State) (k but : Nat) : List Tow :=
  s.dies.flatMap fun d => (d.2.tows.filter fun t => t.2.st != .idle && t.2.clusters.contains k && d.1 * 64 + t.1 != but).map Prod.snd

/-- R148: PORTS, OVERLAP or neither for a set of clusters and ranges; PORTS where both hold.
(DESIGN CHOICE, log entry 50) -/
def portStatus (s : State) (ks : List Nat) (rs : List (Nat × Nat)) (but : Nat) : Nat :=
  if ks.any fun k => decide (4 ≤ (loadedTows s k but).length) then 2
  else if ks.any fun k => (loadedTows s k but).any fun t => t.ranges.any fun g => rs.any fun r => meets g.1 g.2 r.1 r.2 then 3
  else 0

/-- R149: TWREC with either value of NEW. -/
def twrec (d a b : Reg) : Act Flow := do
  checkOps [.grp a 1, .grp b 1, .dst d]
  let w := (← group a 1).getD 0 0
  let off := (← group b 1).getD 0 0
  let new := bitOf w 8
  let hd0 := fld w 7 0
  if fld w 60 9 ≠ 0 ∨ (new ∧ hd0 ≠ 0) then trap 0x1A w
  let blk ← readBlock (fld w 63 61) off 21
  let w0 := blk.getD 0 0
  let nr := fld w0 3 0
  if fld w0 63 48 ≠ 0 ∨ fld w0 31 4 ≠ 0 ∨ nr = 0 ∨ 8 < nr then trap 0x1A 0
  let s ← get
  let t := self s
  match badSet blk (flotillaClusters s t) with
  | some i => trap 0x1A (word i)
  | none => pure ()
  let rs ← blockRanges blk nr
  let ks := blockClusters blk
  sendGate fun _ => true
  let s ← get
  let cid := cidOf s (coreOf s.cur)
  let dd := dieOf (coreOf s.cur)
  let fresh : Tow :=
    { st := .recording, rp := false, part := false, dep := false, thr := fld w0 47 32, step := 0, cid := cid,
      flotilla := t.flotilla, clusters := ks, ranges := rs, last := (0, 0, 0), cum := (0, 0, 0), sum := (0, 0, 0), pending := 0 }
  if new then
    match lowestFree (die s dd).tows 64 with
    | none =>
      dst d (towWord 1 0)
      return .seq
    | some i =>
      let hd := dd * 64 + i
      let st := portStatus s ks rs hd
      if st = 0 then
        set (setTow (freeTowRecords s hd) hd fresh)
        dst d (towWord 0 hd)
      else dst d (towWord st 0)
      return .seq
  else
    match towFor s cid hd0 with
    | none =>
      dst d (towWord 4 hd0)
      return .seq
    | some old =>
      if old.pending ≠ 0 then hold
      let st := portStatus s ks rs hd0
      if st = 0 then
        set (setTow (freeTowRecords s hd0) hd0 { fresh with step := old.step, flotilla := old.flotilla })
        dst d (towWord 0 hd0)
      else dst d (towWord st hd0)
      return .seq

/-- TWREC with NEW = 1: allocates a towline and starts recording. (R149) (DEDUCED, log entry 19) -/
def execTwrecNew (d a b : Reg) (s : State) : Out := issue (twrec d a b) s

/-- TWREC with NEW = 0: re-records a towline from a new block. (R145, R149) -/
def execTwrecRerecord (d a b : Reg) (s : State) : Out := issue (twrec d a b) s

/-- The handle of a towline operand, or TOWLINE-ARG (R150). -/
def towHandle (d a : Reg) : Act Nat := do
  checkOps [.grp a 1, .dst d]
  let w := (← group a 1).getD 0 0
  if fld w 63 8 ≠ 0 then trap 0x1A w
  return fld w 7 0

/-- TWSTEP: closes the current step and opens the next at all 256 slices. (R144, R150) -/
def execTwstep (d a : Reg) (s : State) : Out :=
  issue (do
    let hd ← towHandle d a
    release .th
    let s ← get
    match towFor s (cidOf s (coreOf s.cur)) hd with
    | none =>
      dst d (towWord 4 hd)
      return .seq
    | some t =>
      if t.pending ≠ 0 then hold
      if t.st = .idle then
        dst d (towWord 0 hd)
        return .seq
      let s' := setTow s hd { t with pending := 256, sum := (0, 0, 0) }
      set (postAll s' ((List.range 256).map fun h => .stepMessage h hd (some s.cur)))
      inside (.towline d hd 256)) s

/-- R150: an operation that frees a towline's records and unloads its ranges. -/
def towFree (f : State → Nat → Tow → State) (d a : Reg) : Act Flow := do
  let hd ← towHandle d a
  let s ← get
  match towFor s (cidOf s (coreOf s.cur)) hd with
  | none =>
    dst d (towWord 4 hd)
    return .seq
  | some t =>
    if t.pending ≠ 0 then hold
    sendGate fun _ => true
    set (f s hd t)
    dst d (towWord 0 hd)
    return .seq

/-- TWEND: a towline becomes IDLE and keeps its counters. (R145, R150) (DEDUCED, log entry 19) -/
def execTwend (d a : Reg) (s : State) : Out :=
  issue (towFree (fun s hd t => if t.st = .idle then s else setTow (freeTowRecords s hd) hd { t with st := .idle, rp := false }) d a) s

/-- R145: a towline dropped: its descriptor is free; the step messages of a step that a partition flush breaks off go with
it. -/
def dropTow (s : State) (hd : Nat) : State :=
  let step := fun (e : Event) => match e with
    | .stepMessage _ h _ => h == hd
    | _ => false
  let s := { s with due := s.due.filter fun e => !step e }
  modDie (freeTowRecords s hd) (hd / 64) fun x => { x with tows := del x.tows (hd % 64) }

/-- TWDROP: frees a towline descriptor. (R145, R150) (DEDUCED, log entry 19) -/
def execTwdrop (d a : Reg) (s : State) : Out := issue (towFree (fun s hd _ => dropTow s hd) d a) s

/-- The code of a towline state (R151). -/
def towCode : TowSt → Nat
  | .idle => 0
  | .recording => 1
  | .armed => 2
  | .replaying => 3
  | .fallback => 4

/-- R151: the word that a selector reads. -/
def towStatus (t : Tow) (sel : Nat) : Word :=
  let counts := fun (c : Nat × Nat × Nat) => word (c.1 * 2 ^ 42 + c.2.1 * 2 ^ 21 + c.2.2)
  if sel = 0 then
    word (towCode t.st * 2 ^ 61 + 2 ^ 60 + t.rp.toNat * 2 ^ 59 + t.part.toNat * 2 ^ 58 + t.dep.toNat * 2 ^ 57 + t.thr * 2 ^ 32 + t.step)
  else if sel = 1 then counts t.last
  else counts t.cum

/-- TWSTAT: a towline's status or counters. (R151) -/
def execTwstat (d a : Reg) (s : State) : Out :=
  issue (do
    checkOps [.grp a 1, .dst d]
    let w := (← group a 1).getD 0 0
    let sel := fld w 9 8
    if fld w 63 10 ≠ 0 ∨ sel = 3 then trap 0x1A w
    let hd := fld w 7 0
    let s ← get
    match towFor s (cidOf s (coreOf s.cur)) hd with
    | none => dst d (towWord 4 hd)
    | some t => dst d (towStatus t sel)
    return .seq) s

end Sys2Proof.Machine
end

