-- ==== Sys2Proof/Machine/Change.lean ====
section
/-! DEFINITION. Slots given, saves reported, tenant changes and retirement (spec/22_scheduling.md R345 to R347,
spec/23_traps.md R359 to R361, spec/04_basins.md R77). -/

namespace Sys2Proof.Machine

/-! ### Tenant change (R361) -/

/-- The cores of some clusters. -/
def coresOf (ks : List Nat) : List Nat := ks.flatMap fun k => (List.range 8).map fun i => k * 8 + i

/-- A flotilla changed. -/
def modFlotilla (s : State) (f : Nat) (g : Flotilla → Flotilla) : State :=
  match find s.flotillas f with
  | some x => { s with flotillas := put s.flotillas f (g x) }
  | none => s

/-- The key under which a suspended flotilla keeps its tree's episode: no cluster's number. -/
def treeKey : Nat := 256

/-- What F leaves of a core, which L begins without. -/
def shareOf (s : State) (c : Nat) : CoreShare :=
  let x := core s c
  { core := c, slc := x.slc, slto := x.slto, inbox := x.inbox ++ x.inboxOver, spawnQ := x.spawnQ ++ x.heldSnaps.map fun n => .snap n.1 n.2,
    reserved := x.reserved, timers := sluiceTimers s c }

/-- A core with its tenant's share taken away. -/
def clearShare (s : State) (c : Nat) : State :=
  dropTimer (modCore (stopSluices s c) c fun x =>
    { x with slc := 0, slto := 0, inbox := [], inboxOver := [], spawnQ := [], heldSnaps := [], aged := false, reserved := [] }) (.headAged c)

/-- Whether a launch fits a running flotilla's clusters (R361). -/
def launchFits (l : Launch) (f : Flotilla) : Bool :=
  l.ncl == f.launch.ncl && l.tree == f.launch.tree &&
    (!l.oneDie || ((f.clusters.map dieOfCluster).eraseDups.length == 1 && match l.die_ with
      | some d => f.clusters.all fun k => dieOfCluster k == d
      | none => true))

/-- What the second half of TCHG's word names: a queued, ready launch that can be read, or a suspended flotilla. -/
inductive Tenant where
  | queued (l : Launch)
  | away (f : Nat)
  deriving DecidableEq, Repr

/-- The tenant that takes over, if it fits. -/
def tenantFor (s : State) (cid : Nat) (f : Flotilla) (id : Nat) : Option Tenant :=
  match s.flotillas.find? fun g => g.2.cid == cid && g.2.launch.id == id with
  | some g => if g.2.suspended && launchFits g.2.launch f && g.2.clusters == f.clusters then some (.away g.1) else none
  | none =>
    (part s cid).bind fun p =>
      ((p.queues.flatMap fun q => q.2).find? fun l => l.id == id).bind fun l =>
        if launchReady s cid p l && launchFits l f then (readLaunch s cid l).map .queued else none

/-- Whether a change is in progress on any of some clusters. -/
def changing (s : State) (ks : List Nat) : Bool := (coresOf ks).any fun c => (core s c).tchg

/-- The flotilla's jobs are pre-empted (R125, R129). (DEDUCED, log entry 30) -/
def preemptJobs (s : State) (f : Nat) (ks : List Nat) : State :=
  forEach ks (fun s k => ((cluster s k).jobs.filter fun j => j.flotilla == f && (j.st == .running || j.st == .stopped) && !j.ended).foldl
    (fun s j => post s (.jobPreemption k j.id)) s) s

/-- A saved context let go for restore (R361). -/
def release1 (p : Saved → Bool) (s : State) : State :=
  match s.saved.find? p with
  | some x => post { s with saved := s.saved.map fun y => if y == x then { y with held := false } else y } (.slotGrant x.core)
  | none => s

/-- The table entries of a flotilla that wait to be created, of those that are picked: each that fits is (R344, R361). -/
def placeEntries (s : State) (g : Nat) (pick : List Word → Bool) : State :=
  match find s.flotillas g with
  | none => s
  | some y =>
    let one := fun (p : State × List (List Word)) (e : List Word) =>
      match if pick e then placeThread p.1 g y.launch y.clusters e else none with
      | some s => (s, p.2)
      | none => (p.1, p.2 ++ [e])
    let r := y.entries.foldl one (s, [])
    modFlotilla r.1 g fun y => { y with entries := r.2 }

/-- Once its last slot is handed over, the change is complete: F is suspended, and what L has not created or restored
yet follows. (DEDUCED, log entry 27) -/
def completeChange (s : State) (f : Nat) : State :=
  match find s.flotillas f with
  | none => s
  | some x =>
    match x.next with
    | none => s
    | some g =>
      let s := modFlotilla s f fun y => { y with suspended := true, next := none }
      let s := forEach (coresOf x.clusters) (fun s c => modCore s c fun y => { y with tchg := false }) s
      let s := placeEntries s g fun _ => true
      let back := fun (v : Saved) => if v.thread.flotilla = g then { v with held := false } else v
      postAll { s with saved := s.saved.map back } ((coresOf x.clusters).map .slotGrant)

/-- Whether every slot of F has been handed over. -/
def handedOver (s : State) (f : Nat) : Bool := !(s.threads.any fun p => p.2.flotilla == f)

/-- R361: the next thread of L for a core takes a slot that F has left. -/
def handOver (s : State) (f c : Nat) : State :=
  match (find s.flotillas f).bind Flotilla.next with
  | none => s
  | some g =>
    let s := match find s.flotillas g with
      | none => s
      | some y =>
        match y.entries.find? fun e => entryCore y.clusters e == c with
        | some e => (placeThread (modFlotilla s g fun y => { y with entries := y.entries.erase e }) g y.launch y.clusters e).getD s
        | none => release1 (fun v => v.thread.flotilla == g && v.core == c && v.held) s
    if handedOver s f then completeChange s f else s

/-- The snapshots among queued creations. -/
def snapsIn (qs : List Queued) : List (Nat × Nat) := qs.filterMap fun q => match q with
  | .snap d i => some (d, i)
  | _ => none

/-- R298, R361: the arrivals that a flotilla's threads made while it was being handed over are counted once it is back. -/
def settleBack (s : State) (f : Nat) : State :=
  let here := s.threads.map (fun p => (coreOf p.1, p.2)) ++ s.saved.map fun x => (x.core, x.thread)
  (here.filter fun p => p.2.flotilla == f).foldl (fun s p => match waitOf p.2 with
    | some (.sluice _ t i false) => settleSluice s p.1 t i
    | _ => s) s

/-- A suspended flotilla's shares and episodes stand again on its cores and clusters. -/
def returnShares (s : State) (f : Nat) (y : Flotilla) : State :=
  let put1 := fun (s : State) (x : CoreShare) =>
    let s := modCore s x.core fun c => { c with
      slc := x.slc, slto := x.slto, inbox := x.inbox.take 64, inboxOver := x.inbox.drop 64, spawnQ := x.spawnQ.take 8
      heldSnaps := snapsIn (x.spawnQ.drop 8), aged := false }
    let s := x.timers.foldl (fun s p => postTimer s (.sluiceTimeout x.core p.1 p.2)) s
    if x.spawnQ.isEmpty then s else postTimer s (.headAged x.core)
  let s := y.shares.foldl put1 s
  let s := forEach y.clusters (fun s k => modCluster s k fun x => { x with
    flotilla := f, sluices := (find y.sluices k).getD [] }) s
  let s := match y.tree with
    | none => s
    | some t =>
      let s := forEach (y.clusters.map dieOfCluster).eraseDups (fun s d => modDie s d fun x => { x with
        treeOwner := put x.treeOwner t f, trees := del x.trees t }) s
      match ((find y.sluices treeKey).getD []).head? with
      | some e => modDie s (dieOfCluster (y.clusters.headD 0)) fun x => { x with trees := put x.trees t e.2 }
      | none => s
  let s := modFlotilla s f fun y => { y with suspended := false, sluices := [] }
  let jobs := y.clusters.flatMap fun k => ((cluster s k).jobs.filter fun j => j.flotilla == f).map fun j => (k, j)
  let s := jobs.foldl (fun s q => if q.2.preempted then post s (.jobResume q.1 q.2.id) else finishJob s q.1 q.2.id) s
  let s := forEach y.clusters kickEngine (settleBack s f)
  postAll s ((coresOf y.clusters).map .slotGrant)

/-- R361: a change begins: F's share of its cores is saved, L gets an empty one, F's jobs are pre-empted, its saved
contexts are kept until it returns, and forced saves become due. Reservations that an earlier return still owes F stay
owed. The cores' format contexts stay as they stand. (DESIGN CHOICE, log entry 49) -/
def beginChange (s : State) (f : Nat) (x : Flotilla) (l : Tenant) : State :=
  let cs := coresOf x.clusters
  let eps := x.clusters.map fun k => (k, (cluster s k).sluices)
  let tree := match x.tree with
    | some t => [(treeKey, ((find (die s (dieOfCluster (x.clusters.headD 0))).trees t).map fun e => [(t, e)]).getD [])]
    | none => []
  let owed := fun (c : Nat) => (x.shares.filter fun h => h.core == c).flatMap CoreShare.reserved
  let shares := cs.map fun c => let h := shareOf s c; { h with reserved := h.reserved ++ owed c }
  let s := forEach cs clearShare s
  let s := forEach cs (fun s c => modCore s c fun y => { y with tchg := true }) s
  let kept := fun (v : Saved) => if v.thread.flotilla = f then { v with held := true } else v
  let s := preemptJobs { s with saved := s.saved.map kept } f x.clusters
  let s := match l with
    | .queued l =>
      let g := s.nextFlotilla
      let y : Flotilla :=
        { cid := x.cid, launch := l, clusters := x.clusters, tree := x.tree, term := false, sf := false, suspended := false,
          next := none, entries := l.threads, shares := [], sluices := [] }
      let s := dequeue s x.cid l.id
      let s := { s with flotillas := put s.flotillas g y, nextFlotilla := g + 1 }
      let s := forEach x.clusters (fun s k => modCluster s k fun c => { c with flotilla := g, sluices := [] }) s
      let s := match x.tree with
        | some t => forEach (x.clusters.map dieOfCluster).eraseDups (fun s d => modDie s d fun z => { z with
            treeOwner := put z.treeOwner t g, trees := del z.trees t }) s
        | none => s
      modFlotilla s f fun z => { z with next := some g, shares := shares, sluices := eps ++ tree }
    | .away g =>
      let s := match find s.flotillas g with
        | some y => returnShares s g y
        | none => s
      modFlotilla s f fun z => { z with next := some g, shares := shares, sluices := eps ++ tree }
  let due := cs.filter fun c => (core s c).ydl == 0
  let s := postAll s (due.map .forcedSave)
  let s := (cs.filter fun c => (core s c).ydl != 0).foldl (fun s c => postTimer s (.forcedSave c)) s
  if handedOver s f then completeChange s f else s

/-- R361: a write to TS.TCHG: the change requested, or none if the value is refused. -/
def requestChange (s : State) (c : Nat) (v : Word) : Option State :=
  let cid := cidOf s c
  match s.flotillas.find? fun f => f.2.cid == cid && f.2.launch.id == fld v 63 32 && !f.2.suspended && f.2.next.isNone with
  | none => none
  | some (f, x) =>
    if changing s x.clusters then none
    else (tenantFor s cid x (fld v 31 0)).map (beginChange s f x)

/-- R361: the next forced save on a core: the first slot not yet handed over in rotation order after the access half's
last pick. (DEDUCED, log entry 26) -/
def forceSave (s : State) (c : Nat) : State :=
  let mine := fun (k : Nat) => match thr s k with
    | some t => t.saving.isNone && (((find s.flotillas t.flotilla).map fun f => f.next.isSome).getD false)
    | none => false
  let order := (List.range 64).map fun i => c * 64 + ((core s c).rotA + 1 + i) % 64
  match order.filter mine with
  | [] => s
  | k :: rest =>
    let s := beginSave s k true
    if mine k && !((thr s k).any fun t => t.saving.isSome) then postTimer s (.forcedSave c)   -- no context record is free (R359)
    else if rest.isEmpty then s else post s (.forcedSave c)

/-- The lines that the scheduler visits to judge a request: the counters of the launch that takes over, its thread table and
its segment block. -/
def changeVisits (s : State) (c : Nat) (v : Word) : List Visit :=
  let cid := cidOf s c
  let ls := ((part s cid).map fun p => (p.queues.flatMap fun q => q.2).filter fun l => l.id == fld v 31 0).getD []
  ls.flatMap fun l => ((List.range l.ndep).filter fun k => bitOf (l.desc.getD (6 + 2 * k) 0) 63).flatMap (fun k =>
    visitsTo s cid (fld (l.desc.getD (6 + 2 * k) 0) 51 0) 8 .read) ++ if l.read then [] else launchVisits s cid l

/-- TS_TCHG_WRITE: a request that reaches the cores, or is refused and changes nothing. (R361) -/
def execTsTchgWrite (c : Nat) (v : Word) (s : State) : Out :=
  .next (visit s (changeVisits s c v) (.tsTchgWrite c v) fun s => (requestChange s c v).getD s)

/-- FORCED_SAVE: the yield deadline has passed for a slot. (R361) (DEDUCED, log entry 26) -/
def execForcedSave (c : Nat) (s : State) : Out := .next (forceSave s c)

/-! ### Slots (R347, R359) -/

/-- R361: what a tenant change has left to do on a core whose slots have come free: F's last resident thread may have ended,
and table entries of L that found no room are created. -/
def changeMore (s : State) (c : Nat) : State :=
  let here := s.flotillas.filter fun f => f.2.clusters.contains (clusterOf c)
  let s := (here.filter fun f => f.2.next.isSome && handedOver s f.1).foldl (fun s f => completeChange s f.1) s
  (here.filter fun f => !f.2.entries.isEmpty && !f.2.suspended && !takesOver s f.1).foldl
    (fun s f => placeEntries s f.1 fun e => entryCore f.2.clusters e == c) s

/-- SLOT_GRANT: free slots given in order; a creation that still waits makes room. (R347, R359) -/
def giveSlots (s : State) (c : Nat) : State :=
  let s := grantAll (refillQueue (changeMore s c) c 8) c 128
  if creationWaits s c then makeRoom s c else s

/-- R360, R131: a slot's save reported: its context is SAVED, its windows are free. -/
def reportSave (s : State) (slot : Nat) : State :=
  match thr s slot with
  | none => s
  | some t =>
    match t.saving with
    | none => s
    | some forced =>
      if !saveDone s slot then post s (.saveReported slot)
      else
        let c := coreOf slot
        let held := ((find s.flotillas t.flotilla).map fun f => f.next.isSome).getD false
        let x : Saved :=
          { core := c, slot := slot, thread := { t with saving := none, frc := forced }, vregs := laneBytes s c t,
            wakeDue := couldGo t, woke := s.nextTx, held := held }
        let s := swapEps s (cidOf s c) slot (awayKey t)
        let s := renameTimers (delThr s slot) slot (awayKey t)
        let s := renameIb { s with saved := s.saved ++ [x] } c slot (awayKey t)
        if held then handOver s t.flotilla c else giveSlots s c

/-- SAVE_REPORTED: a slot's save is reported and the slot freed. (R131, R359) -/
def execSaveReported (slot : Nat) (s : State) : Out := .next (reportSave s slot)

/-- SLOT_LENDING: the scheduler lends a slot: its thread is saved. (R175, R359) (DESIGN CHOICE, log entry 44) -/
def execSlotLending (slot : Nat) (s : State) : Out :=
  .next (match thr s slot with
    | some t => if t.saving.isNone then beginSave s slot false else s
    | none => s)

/-- A creation of a flotilla that is being handed over or is suspended joins what is saved of its core's spawn queue (R361). -/
def queueAway (s : State) (c f : Nat) (q : Queued) : State :=
  modFlotilla s f fun y => { y with shares := y.shares.map fun x => if x.core == c then { x with spawnQ := x.spawnQ ++ [q] } else x }

/-- How many creations wait in what is saved of a core's spawn queue. -/
def awayCount (s : State) (c f : Nat) : Nat :=
  (((find s.flotillas f).bind fun y => y.shares.find? fun x => x.core == c).map fun x => x.spawnQ.length).getD 8

/-- Whether an arrival of a flotilla may start on a core at once: nothing of its own queue comes first, and it is not suspended;
its threads run on while they are handed over (R361). -/
def mayStart (s : State) (c f : Nat) : Bool :=
  if flotillaHeld s f then !((find s.flotillas f).any Flotilla.suspended) && awayCount s c f == 0 else (core s c).spawnQ.isEmpty

/-- R284, R347: a spawn reaches its core: started, queued or refused, once those that come first have had their slots. -/
def spawnArrives (s : State) (q : SpawnReq) : State :=
  let c := q.target
  let s := grantAll (refillQueue s c 8) c 128
  match if mayStart s c q.flotilla then startSpawn s c q else none with
  | some s => answerSpawn s q.from_ 0
  | none =>
    if flotillaHeld s q.flotilla then
      if awayCount s c q.flotilla < 8 then answerSpawn (queueAway s c q.flotilla (.spawn q)) q.from_ 1 else answerSpawn s q.from_ 2
    else if (core s c).spawnQ.length < 8 then makeRoom (answerSpawn (joinQueue s c (.spawn q)) q.from_ 1) c
    else answerSpawn s q.from_ 2

/-- SPAWN_ARRIVAL: a spawn reaches its target core and is started, queued or refused. (R284, R347) -/
def execSpawnArrival (q : SpawnReq) (s : State) : Out := .next (spawnArrives s q)

/-- R326: a runnable snapshot reaches its core: restored, queued, or held by the completion unit.
(DEDUCED, log entry 42) -/
def snapArrives (s : State) (d i : Nat) : State :=
  match find (tbl s d).snaps i with
  | none => s
  | some n =>
    let c := n.core
    if !n.runnable || (core s c).spawnQ.contains (.snap d i) || (core s c).heldSnaps.contains (d, i) then s
    else
      let s := grantAll (refillQueue s c 8) c 128
      match if mayStart s c n.flotilla then startSnap s c d i else none with
      | some s => s
      | none =>
        if flotillaHeld s n.flotilla then queueAway s c n.flotilla (.snap d i)
        else
          let s := if (core s c).spawnQ.length < 8 then joinQueue s c (.snap d i)
            else modCore s c fun x => { x with heldSnaps := x.heldSnaps ++ [(d, i)] }
          makeRoom s c

/-- SNAPSHOT_RESTORE: a runnable snapshot is sent to its core. (R326, R336) -/
def execSnapshotRestore (d i : Nat) (s : State) : Out := .next (snapArrives s d i)

/-! ### Retirement (R345) -/

/-- R77: every active basin of a flotilla's cores dropped with its write-back; a basin keeps its flags (R67). -/
def dropBasins (s : State) (ks : List Nat) : State :=
  forEach (coresOf ks) (fun s c => ((core s c).basins.filter fun b => b.2.st == .active).foldl
    (fun s b => freeDropped (dropBasin s c b.1 true none) c b.1) s) s

/-- R345, R361: the flotilla's clusters given up: towlines, tree, permission tables; then the status record and the event
counter; then the oldest flotilla suspended on them returns, the one placed first. (DESIGN CHOICE, log entry 51) -/
def retire (s : State) (f : Nat) (x : Flotilla) : State :=
  let mine := (x.clusters.filter fun k => (cluster s k).flotilla == f)
  let hds := s.dies.flatMap fun d => (d.2.tows.filter fun t => t.2.flotilla == f).map fun t => d.1 * 64 + t.1
  let s := hds.foldl dropTow s
  let s := match x.tree with
    | some t =>
      let free := fun (d : Nat × Die) =>
        if find d.2.treeOwner t == some f then (d.1, { d.2 with treeOwner := del d.2.treeOwner t, trees := del d.2.trees t }) else d
      { s with dies := s.dies.map free }
    | none => s
  let s := forEach mine (fun s k => modCluster s k fun c => { c with flotilla := 0, acc := 0, msg := 0 }) s
  let s := { s with flotillas := del s.flotillas f }
  let desc := x.launch.desc
  let rva := fld (desc.getD 4 0) 51 0
  let eva := fld (desc.getD 3 0) 51 0
  let rec_ := word (x.launch.id * 2 ^ 32 + x.term.toNat * 4 + x.sf.toNat)
  let s := if rva = 0 then s else (partStore s x.cid rva rec_).getD s
  let s := if eva = 0 then s else partBump s x.cid eva
  let s := match s.flotillas.find? fun g => g.2.suspended && g.2.clusters == x.clusters && !mine.isEmpty with
    | some (g, y) =>
      let s := forEach y.clusters (fun s k => modCluster s k fun c => { c with
        acc := clusterMask y.clusters, msg := clusterMask (((part s y.cid).map fun p => p.clusters).getD []) }) s
      let s := returnShares s g y
      { s with saved := s.saved.map fun v => if v.thread.flotilla = g then { v with held := false } else v }
    | none => s
  -- the dies' trees and slots serve every partition
  postAll s (.counterPoll x.cid :: s.parts.map fun p => .launchPlacement p.1)

/-- The lines that a retirement writes: the status record and the event counter (R345). -/
def retireVisits (s : State) (x : Flotilla) : List Visit :=
  let eva := fld (x.launch.desc.getD 3 0) 51 0
  recordVisits s x.cid x.launch ++ if eva = 0 then [] else visitsTo s x.cid eva 8 .sync

/-- Whether what ended threads of a core have stored is performed: their stores have drained and been acknowledged, and no
host-done is owed for them (R87, R115). -/
def storesDone (s : State) (c : Nat) : Bool :=
  let x := core s c
  x.sb.isEmpty && x.leftOver.isEmpty && x.wbs.isEmpty && x.goneAtoms.isEmpty && x.goneOwed.isEmpty &&
    !x.journal.any fun j => unackedEntry j.2

/-- Whether what ended threads of a core have stored is performed, of whichever tenant. -/
def goneDone (s : State) (c : Nat) : Bool :=
  let x := core s c
  !(x.sb.any SbEntry.gone) && x.leftOver.isEmpty && x.goneAtoms.isEmpty && x.goneOwed.isEmpty &&
    !x.journal.any fun j => j.2.gone && unackedEntry j.2

/-- Whether a retirement has nothing to wait for: the stores and write-backs of its cores are acknowledged, since the counter's
add is a release (R345), the steps of its towlines are closed, since a descriptor takes operations in arrival order (R145),
no line that it writes is busy, and no other flotilla is still being handed over to it, to which the clusters return (R361). A
suspended one waits for what its own threads have stored. -/
def retireReady (s : State) (f : Nat) : Bool :=
  match find s.flotillas f with
  | none => true
  | some x =>
    !takesOver s f && (coresOf x.clusters).all (if x.suspended then goneDone s else storesDone s) &&
      (!s.dies.any fun d => d.2.tows.any fun t => t.2.flotilla == f && t.2.pending != 0) && mayVisit s (retireVisits s x)

/-- R345: a flotilla whose thread count is 0 retires, once its basins have been written back. One that is suspended, or whose
last thread ends while it is handed over, drops none: its cores' basins are its tenant's too (R361).
(DEDUCED, log entry 27; DESIGN CHOICE, log entry 49) -/
def retireFlotilla (s : State) (f : Nat) : State :=
  match find s.flotillas f with
  | none => s
  | some x =>
    let again := Event.flotillaRetirement f
    if threadCount s f != 0 || !x.entries.isEmpty then s
    else if x.next.isSome then post (completeChange s f) again
    else if !retireReady s f then post s again
    else if x.suspended then visit s (retireVisits s x) again fun s => retire s f { x with clusters := [] }
    else if (coresOf x.clusters).any fun c => !(core s c).spawnQ.isEmpty || !(core s c).heldSnaps.isEmpty then
      -- the slots that have come free go to what is queued first (R347)
      postAll s ((coresOf x.clusters).map .slotGrant ++ [again])
    else if (coresOf x.clusters).any fun c => (core s c).basins.any fun b => b.2.st == .active then
      post (dropBasins s x.clusters) again
    else visit s (retireVisits s x) again fun s => retire s f x

/-- FLOTILLA_RETIREMENT: a flotilla whose last thread has ended gives its clusters back. (R345, R346) -/
def execFlotillaRetirement (f : Nat) (s : State) : Out := .next (retireFlotilla s f)

/-- LAUNCH_PLACEMENT: ready launches placed in order. (R343, R344) -/
def execLaunchPlacement (cid : Nat) (s : State) : Out := .next (consider s cid)

/-- COUNTER_POLL: the counters of waiting launches read again. (R342) -/
def execCounterPoll (cid : Nat) (s : State) : Out := .next (consider s cid)

/-- HEAD_AGED: the head of a core's spawn queue has waited its limit: it comes before classes 1 and 2 from now on. (R347) -/
def execHeadAged (c : Nat) (s : State) : Out :=
  .next (giveSlots (modCore (dropTimer s (.headAged c)) c fun x => { x with aged := !x.spawnQ.isEmpty }) c)

end Sys2Proof.Machine
end

