-- ==== Sys2Proof/Machine/System.lean ====
section
/-! DEFINITION. System registers, traps by instruction, returns, segments and invalidations
(spec/23_traps.md R354, R355, R358, R362; spec/26_translation.md R374 to R376). -/

namespace Sys2Proof.Machine

/-! ### Reading (R354) -/

/-- TS.TSTAT as read. -/
def tstat (t : Thread) : Word := word (levelCode t.pp * 4 + t.inh.toNat * 2 + t.frc.toNat)

/-- TS.WIN (R176). -/
def tsWin (t : Thread) : Word := word (t.lsz * 2 ^ 32 + t.lbase * 2 ^ 23 + t.regs.length * 2 ^ 11 + t.rbase)

/-- The words j0 to j3 of a journal entry (R210); an entry not in use reads 0, in its data words too (R358).
(DESIGN CHOICE, log entry 51) -/
def journalWord (j : Option JEntry) (n : Nat) : Word :=
  match j with
  | none => 0
  | some e =>
    if n = 0 then word (2 ^ 63 + e.ref.toNat * 2 ^ 62 + e.size * 2 ^ 60 + kindCode e.kind * 2 ^ 57 + e.code * 2 ^ 52 + e.tgt * 2 ^ 44 + e.seq.toNat)
    else if n = 1 then word (e.addr % 2 ^ 52)
    else if n = 2 then e.data
    else word (e.swid * 2 ^ 32 + e.slot)

/-- MG.STAT (R394). -/
def mgStat (p : Pkg) : Word :=
  word (p.ready.toNat * 2 ^ 63 + p.phase * 2 ^ 60 + p.zdone.toNat * 2 ^ 59 + p.thr.toNat * 2 ^ 58 + p.deg.toNat * 2 ^ 57 + p.ue % 2 ^ 32)

/-- The value of a readable system register of the issuing thread, its core, die or package. -/
def sysRead (s : State) (k : Nat) : Word :=
  let t := self s
  let c := coreOf s.cur
  let x := core s c
  match k with
  | 0x000 => t.tvec
  | 0x001 => t.tpc
  | 0x002 => t.cause
  | 0x003 => t.tval
  | 0x004 => t.tadr
  | 0x005 => tstat t
  | 0x008 => tsWin t
  | 0x009 => t.spt
  | 0x00A => t.vrm
  | 0x00B => x.slc
  | 0x00C => x.slto
  | 0x010 => x.ydl
  | 0x011 => word (x.tchg.toNat * 2 ^ 63)
  | 0x018 => t.jsel
  | 0x019 => journalWord (find x.journal t.jsel.toNat) 0
  | 0x01A => journalWord (find x.journal t.jsel.toNat) 1
  | 0x01B => journalWord (find x.journal t.jsel.toNat) 2
  | 0x01C => journalWord (find x.journal t.jsel.toNat) 3
  | 0x020 => x.fq
  | 0x021 => x.ctxa
  | 0x022 => x.dtv
  | 0x100 => x.mvec
  | 0x101 => mgStat s.pkg
  | 0x102 => s.pkg.hotBase
  | 0x103 => s.pkg.hotCtl
  | 0x104 => (die s (dieOf c)).tblArea
  | _ => 0

/-- The lowest level that may access a register (R354): by its number, for reads and writes. (DEDUCED, log entry 23) -/
def regLevel (k : Nat) (write : Bool) : Nat :=
  if k = 0x005 ∧ !write then 0
  else if k = 0x101 then 0
  else if 0x100 ≤ k then 2
  else if 0x008 ≤ k ∧ k ≤ 0x00C then 0
  else 1

/-! ### Writing (R354, R297, R358) -/

/-- R297: whether a value may be written to TS.SLC: every count at most 64, and no count of a sluice with arrivals
changed. -/
def slcOk (s : State) (c : Nat) (v : Word) : Bool :=
  let counts := [(false, 0), (false, 1), (false, 2), (false, 3), (true, 0)]
  let new := fun (p : Bool × Nat) => if p.1 then fld v 38 32 else fld v (8 * p.2 + 6) (8 * p.2)
  let tree := ((find s.flotillas (cluster s (clusterOf c)).flotilla).bind Flotilla.tree).getD 16
  counts.all fun p =>
    let i := if p.1 then tree else p.2
    decide (new p ≤ 64) && (new p == localCount s c p.1 p.2 || (episode s c p.1 i).counts.isEmpty)

/-- R358: a journal entry released; none where the write is refused. -/
def releaseEntry (s : State) (c : Nat) (v : Word) : Option State :=
  let e := fld v 4 0
  match find (core s c).journal e with
  | none => none
  | some j =>
    if j.ref || j.code == 7 then some (post (modCore s c fun x => { x with journal := del x.journal e }) (.storeDrain c))
    else none

/-- R357, R279: a STOPPED job that waits on a page fault goes on; none where the cluster is outside the partition. -/
def wakeEngine (s : State) (cid : Nat) (v : Word) : Option State :=
  let k := fld v 23 16
  let id := fld v 15 0
  let unit := fld v 24 24
  if (cluster s k).cid ≠ cid then none
  else match jobAt s k id with
    | some j => if j.st = .stopped && !j.parked.isEmpty && (jobUnit j = 0) == (unit == 0) then some (post s (.jobResume k id)) else some s
    | none => some s

/-- R53, R56: a write of MG.HOTCTL: every sketch and list cleared, a new interval in every controller; a record that one was
writing is left as it stands. (DESIGN CHOICE, log entry 32) -/
def setHotCtl (s : State) (v : Word) : State :=
  let v := word (fld v 31 31 * 2 ^ 31 + fld v 13 0)
  let clear := fun (c : HotCtrl) => { rows := [], cands := [], seq := (c.seq + 1) / 2 * 2 % 2 ^ 32, out := [], phase := (0 : Nat) : HotCtrl }
  let ends := fun (e : Event) => match e with
    | .hotnessIntervalEnd _ => true
    | _ => false
  let s := modPkg s fun p => { p with hotCtl := v, ctrls := p.ctrls.map fun c => (c.1, clear c.2) }
  forEach (List.range 260) (fun s c => postTimer s (.hotnessIntervalEnd c)) { s with due := s.due.filter fun e => !ends e }

/-- The result of writing a system register: the new state, or none where the value is refused. -/
def sysWrite (s : State) (k : Nat) (v : Word) : Option State :=
  let t := self s
  let c := coreOf s.cur
  let th := fun (f : Thread → Thread) => some (modSelf s f)
  let co := fun (f : Core → Core) => some (modCore s c f)
  match k with
  | 0x000 => if fld v 1 0 = 0 then th fun t => { t with tvec := v } else none
  | 0x001 => if fld v 1 0 = 0 then th fun t => { t with tpc := v } else none
  | 0x002 => th fun t => { t with cause := word (fld v 8 0) }
  | 0x003 => th fun t => { t with tval := v }
  | 0x004 => th fun t => { t with tadr := v }
  | 0x005 =>
    let pp := fld v 3 2
    if pp = 3 ∨ levelCode t.level < pp then none
    else some ((t.pend.foldl (fun s _ => post s (.asyncTrapDelivery s.cur)) (modSelf s fun t => { t with pp := levelOf pp, inh := bitOf v 1 })))
  | 0x009 => if windowsOk (fld v 6 0) (fld v 15 8) then th fun t => { t with spt := word (fld v 15 8 * 256 + fld v 6 0) } else none
  | 0x00A => th fun t => { t with vrm := word (fld v 1 0) }
  | 0x00B =>
    if slcOk s c v then
      co fun x => { x with slc := word (fld v 38 32 * 2 ^ 32 + fld v 30 24 * 2 ^ 24 + fld v 22 16 * 2 ^ 16 + fld v 14 8 * 2 ^ 8 + fld v 6 0) }
    else none
  | 0x00C => co fun x => { x with slto := word (fld v 31 0) }
  | 0x010 => co fun x => { x with ydl := word (fld v 15 0) }
  | 0x011 => requestChange s c v
  | 0x012 => wakeEngine s (cidOf s c) v
  | 0x018 => th fun t => { t with jsel := word (fld v 4 0) }
  | 0x01D => releaseEntry s c v
  | 0x100 => co fun x => { x with mvec := v }
  | 0x102 => some (modPkg s fun p => { p with hotBase := word (fld v 45 12 * 2 ^ 12) })
  | 0x103 => some (setHotCtl s v)
  | 0x104 =>
    let n := fld v 5 0
    if 20 ≤ n ∧ n ≤ 36 then some (modDie s (dieOf c) fun d => { d with tblArea := word (fld v 45 16 * 2 ^ 16 + n) }) else none
  | _ => none

/-- TS_JREL_WRITE: a journal entry released, or the write refused. (R358) -/
def execTsJrelWrite (c : Nat) (v : Word) (s : State) : Out := .next ((releaseEntry s c v).getD s)

/-- TS_EWAKE_WRITE: a stopped job resumed. (R279, R357) -/
def execTsEwakeWrite (v : Word) (s : State) : Out :=
  .next ((wakeEngine s (cluster s (fld v 23 16)).cid v).getD s)

/-- MG_HOTCTL_WRITE: sketches and lists cleared, a new interval begun. (R56) -/
def execMgHotctlWrite (v : Word) (s : State) : Out := .next (setHotCtl s v)

/-! ### The instructions (R355, R362) -/

/-- The word of an instruction, as TVAL. -/
def instrWord (i : Instr) : Word := ((encode i).getD 0).setWidth 64

/-- MFS: reads a system register. (R354, R355) -/
def execMfs (d : Reg) (k : BitVec 14) (s : State) : Out :=
  issue (do
    if !readable k then trap 0x01 (instrWord (.mfs d k))
    checkOps [.dst d]
    let t ← me
    if levelCode t.level < regLevel k.toNat false then trap 0x03 (instrWord (.mfs d k))
    dst d (sysRead (← get) k.toNat)
    return .seq) s

/-- MTS: writes a system register, or traps SYSREG-VALUE. (R354, R355) -/
def execMts (d : Reg) (k : BitVec 14) (s : State) : Out :=
  issue (do
    if !writable k then trap 0x01 (instrWord (.mts d k))
    checkOps [.src d]
    let t ← me
    if levelCode t.level < regLevel k.toNat true then trap 0x03 (instrWord (.mts d k))
    let v ← src d
    let s ← get
    -- a tenant change is judged once the scheduler has read what it names (R344, R361)
    let vs := if k.toNat = 0x011 then changeVisits s (coreOf s.cur) v else []
    if notFree s vs then holdWith fun s => recallAll s vs
    match sysWrite s k.toNat v with
    | none => trap 0x05 v
    | some s' =>
      set s'
      return .seq) s

/-- R351: SOFTWARE and BREAKPOINT: the saved pc is the next instruction's. -/
def softTrap (cause : Nat) (k : BitVec 14) : Act Flow := do
  let s ← get
  let t := self s
  set (enterTrap s s.cur cause false (k.setWidth 64) 0 (t.pc + 4))
  return .stay

/-- TRAP: takes SOFTWARE with a code. (R355) -/
def execTrap (k : BitVec 14) (s : State) : Out := issue (softTrap 0x06 k) s

/-- BRK: takes BREAKPOINT with a code. (R355) -/
def execBrk (k : BitVec 14) (s : State) : Out := issue (softTrap 0x07 k) s

/-- ERET: returns from a handler; pending asynchronous traps come first. (R355) -/
def execEret (s : State) : Out :=
  issue (do
    needS .eret
    setMe returned
    modify fun s => deliverAsync s s.cur
    return .stay) s

/-- SEGLD: loads a segment register. (R18, R362) -/
def execSegld (sg : BitVec 3) (a : Reg) (s : State) : Out :=
  issue (do
    checkOps [.grp a 2]
    needS (.segld sg a)
    let g ← group a 2
    let seg : Seg := { s0 := g.getD 0 0, s1 := g.getD 1 0 }
    match segBad seg with
    | some w => trap 0x08 (word w)
    | none =>
      setMe fun t => { t with segs := t.segs.set sg.toNat seg }
      return .seq) s

/-- SEGRD: reads a segment register into two registers. (R362) -/
def execSegrd (d : Reg) (sg : BitVec 3) (s : State) : Out :=
  issue (do
    checkOps [.grp d 2]
    let t ← me
    let g := segOf t sg.toNat
    setGroupRegs d [g.s0, g.s1]
    return .seq) s

/-! ### Invalidation (R362, R374 to R376) -/

/-- The size that a PINV names, none for any size. -/
def pinvSize (req : Word) : Option Nat :=
  match fld req 59 58 with
  | 0 => some (2 ^ 16)
  | 1 => some (2 ^ 21)
  | 2 => some (2 ^ 30)
  | _ => none

/-- Whether a TLB entry is in a PINV's scope (R375). -/
def pinvTlb (req arg : Word) (e : TlbEntry) : Bool :=
  e.cid == fld req 11 0 &&
    (if fld req 61 60 = 1 then true
     else if fld req 63 62 = 1 then
       e.va == arg.toNat / e.size * e.size && (match pinvSize req with
         | some z => e.size == z
         | none => true)
     else e.ia == arg.toNat / e.iaSize * e.iaSize)

/-- Whether a walk-cache entry is in a PINV's scope (R375). -/
def pinvPtr (req arg : Word) (w : WalkPtr) : Bool :=
  let covers := w.prefix_ == arg.toNat / 2 ^ levelShift w.level
  w.cid == fld req 11 0 &&
    (if fld req 63 62 = 1 then !w.stage2 && (fld req 61 60 == 1 || covers)
     else fld req 61 60 == 1 || (if w.stage2 then covers else w.iaPage == arg.toNat / w.iaSize * w.iaSize))

/-- Whether a PINV of stage 2 covers the IA of a parked access's fault (R374). -/
def pinvCovers (req arg : Word) (r : Access) : Bool :=
  r.phys != 0 && r.cid == fld req 11 0 &&
    (fld req 61 60 == 1 || match pinvSize req with
      | some z => (r.phys - 1) / z == arg.toNat / z
      | none => (r.phys - 1) / 2 ^ 16 == arg.toNat / 2 ^ 16)

/-- R376: whether a basin's global side overlaps what a PINV invalidates. -/
def pinvBasin (req arg : Word) (b : Basin) : Bool :=
  if fld req 63 62 = 1 ∧ fld req 61 60 = 0 then
    let z := (pinvSize req).getD (2 ^ 30)
    meets b.gva b.len (arg.toNat / z * z) z
  else true

/-- R375: a cluster port accepts a PINV: entries removed, walks in flight restarted, basins recalled, parked accesses
tried again. The die's walk cache accepts it with each of the die's ports, so that none walks by a pointer that is to go. -/
def acceptPinv (s : State) (k : Nat) (req arg : Word) : State :=
  let s := modCluster s k fun x => { x with
    tlb := x.tlb.filter fun e => !pinvTlb req arg e
    walks := x.walks.map fun w => if w.cid == fld req 11 0 then { w with stale := true } else w }
  let s := modDie s (dieOfCluster k) fun d => { d with walkCache := d.walkCache.filter fun w => !pinvPtr req arg w }
  let s := recallBasins s k (fld req 11 0) (pinvBasin req arg)
  if fld req 63 62 = 2 then
    let s := retryFaulted s k (pinvCovers req arg)
    let s := ((cluster s k).jobs.filter fun j => j.parked.any (pinvCovers req arg)).foldl (fun s j => post s (.jobResume k j.id)) s
    let mine := (s.threads.filter fun p => clusterOf (coreOf p.1) == k).map Prod.fst
    let s := forEach mine (fun s slot => unpark s slot (pinvCovers req arg)) s
    let away := fun (x : Saved) => clusterOf x.core == k && x.thread.parked.any (pinvCovers req arg)
    let cores := (s.saved.filter away).map fun x => Event.slotGrant x.core
    postAll { tick s with saved := s.saved.map fun x => if away x then { x with wakeDue := true, woke := s.nextTx } else x } cores
  else s

/-- An event that carries a translated access of a partition from a cluster. -/
def carries (k cid : Nat) (r : Access) : Bool :=
  r.xlated && clusterOf r.core == k && (r.cid == cid || r.common) && match r.agent with
    | .load _ => true
    | .journal _ _ => true
    | .flush _ _ => true
    | .writeBack _ _ _ _ => true
    | .fill _ _ _ => true
    | .engine _ _ _ => true
    | .prefetch _ => true
    | .fetch _ => true
    | .scheduler => true
    | .host => false
    | .device _ => false
    | .tow _ _ => false

/-- R375 condition 2: whether a request of the partition that the port has translated is still unanswered. -/
def unanswered (s : State) (k cid : Nat) : Bool :=
  let line := fun (x : HomeLine) => (x.current.map (carries k cid)).getD false || x.waiting.any (carries k cid)
  (s.due.any fun e => match e with
    | .requestAtHome _ r => carries k cid r
    | .writeBackMessage _ r => carries k cid r
    | .expanderRead _ r _ _ => carries k cid r
    | .storeAck ⟨_, c⟩ _ _ _ => clusterOf c == k && (cluster s k).cid == cid
    | .loadDataArrives ⟨_, slot⟩ _ _ _ => clusterOf (coreOf slot) == k && (cluster s k).cid == cid
    | .l1FillLands ⟨_, c⟩ i _ _ _ => clusterOf c == k && (i == cid || (i == 0 && (cluster s k).cid == cid))
    | .basinFillLands ⟨_, c⟩ _ _ _ _ => clusterOf c == k && (cluster s k).cid == cid
    | .towArrivesBasin c _ i _ _ _ => clusterOf c == k && (i == cid || (i == 0 && (cluster s k).cid == cid))
    | .writeBackAck ⟨_, c⟩ _ _ _ _ _ _ _ => clusterOf c == k && (cluster s k).cid == cid
    | .copyWriteAck ⟨_, c⟩ _ _ _ _ _ => c == k && (cluster s k).cid == cid
    | _ => false) ||
    (cluster s k).queued.any (carries k cid) || s.slices.any fun h => h.2.lines.any line || h.2.noRoom.any (carries k cid)

/-- The stale walks of a partition at a port. -/
def staleWalks (s : State) (k cid : Nat) : Bool := (cluster s k).walks.any fun w => w.cid == cid && w.stale

/-- Whether a port may acknowledge a PINV now (R375). -/
def pinvDone (s : State) (k cid : Nat) : Bool := !staleWalks s k cid && !unanswered s k cid

/-- The mark of a PINV that a port has accepted and not acknowledged: bit 57, which a request word has clear. -/
def acceptedMark : Word := word (2 ^ 57)

/-- PINV_ACCEPT: a port accepts an invalidation, and acknowledges when it is safe. (R375, R376) -/
def execPinvAccept (k slot : Nat) (req arg : Word) (s : State) : Out :=
  let cid := fld req 11 0
  let s' := if bitOf req 57 then s else acceptPinv s k req arg
  if pinvDone s' k cid then
    let last := fun (t : Thread) => match waitOf t with
      | some (.pinv d n) => if n ≤ 1 then completed t [(d.toNat, 0)] else setWait t (.pinv d (n - 1))
      | _ => t
    .next (modThr s' slot last)
  else .next (post s' (.pinvAccept k slot (req ||| acceptedMark) arg))

/-- PINV: checks its request, waits as FENCE.pk, and invalidates at every port and walk cache. (R362)
(DEDUCED, log entry 23) -/
def execPinv (d a b : Reg) (s : State) : Out :=
  issue (do
    checkOps [.src a, .src b, .dst d]
    let t ← me
    if t.level = .u then trap 0x03 (instrWord (.pinv d a b))
    let w ← src a
    let v ← src b
    let st := fld w 63 62
    let rng := fld w 61 60
    if st = 0 ∨ st = 3 ∨ 2 ≤ rng ∨ fld w 57 12 ≠ 0 ∨ (rng = 0 ∧ fld v 63 52 ≠ 0) then trap 0x09 w
    let s ← get
    if st = 2 ∧ t.level ≠ .m then trap 0x03 (instrWord (.pinv d a b))
    if t.level = .s ∧ fld w 11 0 ≠ cidOf s (coreOf s.cur) then trap 0x09 w
    release .pk
    modify fun s => postAll s ((List.range 256).map fun k => .pinvAccept k s.cur w v)
    inside (.pinv d 256)) s

end Sys2Proof.Machine
end

