-- ==== Sys2Proof/Machine/Tasks.lean ====
section
/-! DEFINITION. Spawning and ending threads, sleeping and waking, groups, sluices and device launches
(spec/18_isa_tasks.md R282 to R299). -/

namespace Sys2Proof.Machine

/-- TASK-ARG with the offending value (R282). -/
def taskArg {α : Type} (v : Word) : Act α := trap 0x1F v

/-! ### Threads -/

/-- The narrowest scope that contains two cores (R284). -/
def scopeOf (c x : Nat) : Scope :=
  if c = x then .co else if clusterOf c = clusterOf x then .cl else if dieOf c = dieOf x then .di else .pk

/-- SPAWN: starts a thread on a named core, queues it there, or is refused. (R284, R285) -/
def execSpawn (d a b : Reg) (s : State) : Out :=
  issue (do
    checkOps [.grp a 4, .grp b 2, .dst d]
    let args ← group a 4
    let tw ← group b 2
    let w := tw.getD 0 0
    if fld w 31 11 ≠ 0 then taskArg w
    let s ← get
    let t := self s
    let c := coreOf s.cur
    let x := fld w 10 0
    if !(cluster s (clusterOf c)).acc.getLsbD (clusterOf x) then trap 0x15 (word (clusterOf x))
    release (scopeOf c x)
    let q : SpawnReq :=
      { from_ := s.cur, target := x, swid := fld w 63 32, pc := tw.getD 1 0, args := args, rsz := fld t.spt 6 0,
        lsz := fld t.spt 15 8, spt := t.spt, segs := t.segs.map fun g => (g.s0, g.s1), level := levelCode t.level,
        tvec := t.tvec, flotilla := t.flotilla }
    modify fun s => post s (.spawnArrival q)
    inside (.spawn d)) s

/-- EXIT: ends the thread; with INH = 1 in S or M it is a termination; a row handler's waits as RDONE does. (R266, R287,
R352) -/
def execExit (s : State) : Out :=
  issue (do
    let t ← me
    if t.handler.isSome then release .cl
    modify fun s => endThread s s.cur (t.inh && t.level != .u)
    return .stay) s

/-- YIELD: takes its turn; a tenant handover or a lending of the slot that is pending saves the thread at once,
cooperatively. No thread that issues is ever pre-empted for a creation that waits (R359). (R288, R361) -/
def execYield (s : State) : Out :=
  issue (do
    let t ← me
    setMe fun t => { t with pc := t.pc + 4, status := .ready }
    modify fun s =>
      let handed := ((find s.flotillas t.flotilla).map fun f => f.next.isSome).getD false
      if handed || s.due.contains (.slotLending s.cur) then beginSave s s.cur false else s
    return .stay) s

/-- SLEEP: waits for a WAKE or the limit; a wake that has come already ends it at once. (R289) -/
def execSleep (a : Reg) (s : State) : Out :=
  issue (do
    checkOps [.src a]
    let n ← src a
    let t ← me
    if t.wakeBit then
      setMe fun t => { t with wakeBit := false }
      return .seq
    else
      modify fun s => post (if n = 0 then s else postTimer s (.sleepLimit s.cur)) (.slotGrant (coreOf s.cur))
      inside .sleep) s

/-- SLEEP_LIMIT: a sleep's limit has passed. (R289) -/
def execSleepLimit (slot : Nat) (s : State) : Out :=
  let s := dropTimer s (.sleepLimit slot)
  .next (match thr s slot with
    | some t => if waitOf t = some .sleep then complete s slot [] else s
    | none =>
      let mine := fun (x : Saved) => awayKey x.thread == slot && waitOf x.thread == some .sleep
      let cores := (s.saved.filter mine).map fun x => Event.slotGrant x.core
      postAll { tick s with saved := s.saved.map fun x => if mine x then completedSaved s.nextTx x [] else x } cores)

/-- R289: a wake reaches a thread. -/
def wakeThread (t : Thread) : Thread := if waitOf t = some .sleep then completed t [] else { t with wakeBit := true }

/-- R290 KIND 1: every thread of a partition with an identifier woken; whether there was one. -/
def wakeSwids (s : State) (cid id : Nat) : State × Bool :=
  let res := fun (p : Nat × Thread) => p.2.swid == id && cidOf s (coreOf p.1) == cid
  let sav := fun (x : Saved) => x.thread.swid == id && cidOf s x.core == cid
  let up := fun (x : Saved) =>
    if waitOf x.thread = some .sleep then completedSaved s.nextTx x [] else { x with thread := { x.thread with wakeBit := true } }
  let timers := fun (e : Event) => match e with
    | .sleepLimit k => !((thr s k).map fun t => res (k, t)).getD false && !(s.saved.any fun x => sav x && awayKey x.thread == k)
    | _ => true
  let s' := { tick s with
    threads := s.threads.map fun p => if res p then (p.1, wakeThread p.2) else p
    saved := s.saved.map fun x => if sav x then up x else x
    timers := s.timers.filter timers }
  (postAll s' ((s.saved.filter sav).map fun x => Event.slotGrant x.core), s.threads.any res || s.saved.any sav)

/-- R357: the wake of PARKED threads with an identifier, and of the faulted stores that they left. -/
def wakeParked (s : State) (cid id : Nat) : State × Bool :=
  let slots := (s.threads.filter fun p => p.2.swid == id && cidOf s (coreOf p.1) == cid && p.2.status == .parked).map Prod.fst
  let sav := fun (x : Saved) => x.thread.swid == id && cidOf s x.core == cid && x.thread.status == .parked
  let store := fun (r : Access) => r.cid == cid && match r.agent with
    | .journal c es => es.any fun e => ((find (core s c).journal e).map fun j => j.swid == id).getD false
    | .scheduler => r.tgt == id
    | _ => false
  let ks := (s.clusters.filter fun k => k.2.faulted.any store).map Prod.fst
  let hit := !slots.isEmpty || s.saved.any sav || !ks.isEmpty
  let cores := (s.saved.filter sav).map fun x => Event.slotGrant x.core
  let s' := { tick s with saved := s.saved.map fun x => if sav x && !x.wakeDue then { x with wakeDue := true, woke := s.nextTx } else x }
  let s' := forEach slots (fun s k => unpark s k fun _ => true) s'
  let s' := forEach ks (fun s k => retryFaulted s k store) s'
  (postAll s' cores, hit)

/-- R290: a wake word of any kind. -/
def wake (i : Instr) (d a : Reg) : Act Flow := do
  checkOps [.src a, .dst d]
  let w ← src a
  let kind := fld w 63 62
  if kind = 3 ∨ fld w 61 32 ≠ 0 ∨ (kind = 0 ∧ fld w 31 17 ≠ 0) then taskArg w
  if kind = 2 then needS i
  let s ← get
  let c := coreOf s.cur
  let cid := cidOf s c
  if kind = 0 then
    let slot := fld w 16 0
    if !(cluster s (clusterOf c)).acc.getLsbD (clusterOf (coreOf slot)) then
      dst d (result 10 0)
      return .seq
    match thr s slot with
    | some _ =>
      if cidOf s (coreOf slot) = cid then
        set (dropTimer (modThr s slot wakeThread) (.sleepLimit slot))
        dst d (result 0 0)
      else dst d (result 6 0)
    | none => dst d (result 6 0)
  else
    let p := if kind = 1 then wakeSwids s cid (fld w 31 0) else wakeParked s cid (fld w 31 0)
    set p.1
    dst d (result (if p.2 then 0 else 6) 0)
  return .seq

/-- WAKE of kind 0: by physical slot. (R290) -/
def execWakeSlot (d a : Reg) (s : State) : Out := issue (wake (.wakeSlot d a) d a) s

/-- WAKE of kind 1: by software identifier. (R290) -/
def execWakeSwid (d a : Reg) (s : State) : Out := issue (wake (.wakeSwid d a) d a) s

/-- WAKE of kind 2: a parked thread. (R290, R357) -/
def execWakeParked (d a : Reg) (s : State) : Out := issue (wake (.wakeParked d a) d a) s

/-- TID: the thread's identifier and slot. (R291) -/
def execTid (d : Reg) (s : State) : Out :=
  issue (do
    checkOps [.dst d]
    let s ← get
    dst d (word ((self s).swid * 2 ^ 32 + s.cur))
    return .seq) s

/-- FLAUNCH: submits a launch from the device. (R292, R338, R339) -/
def execFlaunch (d a : Reg) (s : State) : Out :=
  issue (do
    checkOps [.src a, .dst d]
    let w ← src a
    if fld w 60 52 ≠ 0 then taskArg w
    let sg := fld w 63 61
    let off := word (fld w 51 0)
    let desc ← readBlock sg off 16
    match descBad desc with
    | some i => taskArg (word i)
    | none => pure ()
    keepingBlock sg off desc (release .pk)
    let s ← get
    let cid := cidOf s (coreOf s.cur)
    match enterLaunch s cid desc with
    | some (s', id) =>
      set (post s' (.counterPoll cid))
      dst d (result 0 id)
    | none => dst d (result 1 0)
    return .seq) s

/-! ### Groups (R293 to R296) -/

/-- A group word read, its reserved bits checked. -/
def groupWord (a : Reg) (gbar : Bool) : Act Word := do
  let w ← src a
  if gbar then
    if fld w 63 19 ≠ 0 ∨ fld w 15 14 ≠ 0 ∨ fld w 18 16 = 7 then taskArg w
  else if fld w 63 14 ≠ 0 then taskArg w
  return w

/-- JOIN: joins a group; waits while an episode of its barrier is open. (R293) -/
def execJoin (d a : Reg) (s : State) : Out :=
  issue (do
    checkOps [.src a, .dst d]
    let w ← groupWord a false
    let g := fld w 13 0
    let s ← get
    let t := self s
    let cid := cidOf s (coreOf s.cur)
    if t.groups.contains g then
      dst d (result 12 0)
      return .seq
    if 4 ≤ t.groups.length then
      dst d (result 4 0)
      return .seq
    let r := (groupRec s g).getD { cid := cid, mc := 0, ac := 0, gen := 0 }
    if r.cid ≠ cid then
      dst d (result 11 0)
      return .seq
    if r.ac ≠ 0 then inside (.join d g)
    else
      set (modSelf (setGroup s g { r with mc := r.mc + 1 }) fun t => { t with groups := t.groups ++ [g] })
      dst d (result 0 0)
      return .seq) s

/-- LEAVE: leaves a group. (R294) -/
def execLeave (d a : Reg) (s : State) : Out :=
  issue (do
    checkOps [.src a, .dst d]
    let w ← groupWord a false
    let g := fld w 13 0
    let t ← me
    if t.groups.contains g then
      setMe fun t => { t with groups := t.groups.erase g }
      modify fun s => leaveGroup s g false
      dst d (result 0 0)
    else dst d (result 12 0)
    return .seq) s

/-- The scope of a code of R162. -/
def scopeOfCode : Nat → Scope
  | 0 => .th
  | 1 => .co
  | 2 => .cl
  | 3 => .di
  | 4 => .pk
  | 5 => .dm
  | _ => .sy

/-- GBAR: arrives at a group's barrier and waits for its release. (R295) -/
def execGbar (d a : Reg) (s : State) : Out :=
  issue (do
    checkOps [.src a, .dst d]
    let w ← groupWord a true
    let g := fld w 13 0
    let t ← me
    if !t.groups.contains g then
      dst d (result 12 0)
      return .seq
    let sc := scopeOfCode (fld w 18 16)
    release sc
    let s ← get
    match groupRec s g with
    | none =>
      dst d (result 12 0)
      return .seq
    | some r =>
      let _ ← inside (.gbar d g sc r.gen)
      let r := { r with ac := r.ac + 1 }
      modify fun s => if r.ac = r.mc then releaseGroup s g r else setGroup s g r
      return .stay) s

/-- GCNT: reads a group's record. (R296) -/
def execGcnt (d a : Reg) (s : State) : Out :=
  issue (do
    checkOps [.src a, .dst d]
    let w ← groupWord a false
    let s ← get
    match groupRec s (fld w 13 0) with
    | some r =>
      if r.cid = cidOf s (coreOf s.cur) then dst d (result 0 (r.mc * 2 ^ 34 + r.ac * 2 ^ 17 + r.gen))
      else dst d (result 11 0)
    | none => dst d (result 11 0)
    return .seq) s

/-! ### Sluices (R297 to R299) -/

/-- The tree index of a flotilla. -/
def treeIndex (s : State) (f : Nat) : Option Nat := (find s.flotillas f).bind Flotilla.tree

/-- SLUICE: counts an arrival at a cluster or tree sluice and waits for its release; the arrival of a thread whose flotilla is
being handed over is counted when that returns. (R298, R361) (DESIGN CHOICE, log entry 49) -/
def execSluice (d a : Reg) (s : State) : Out :=
  issue (do
    checkOps [.src a, .dst d]
    let w ← src a
    let tree := bitOf w 4
    let idx := fld w 3 0
    if fld w 63 5 ≠ 0 ∨ (!tree ∧ 4 ≤ idx) then taskArg w
    let s ← get
    let c := coreOf s.cur
    let t := self s
    if (tree && treeIndex s t.flotilla != some idx) || countFor s c t tree idx == 0 then
      dst d (result 10 0)
      return .seq
    release (if tree then .pk else .cl)
    let _ ← inside (.sluice d tree idx false)
    modify fun s => settleSluice s c tree idx
    return .stay) s

/-- SLUICE_TIMEOUT: a participating core's timer has run out: the episode is released with TIMEOUT. (R299) -/
def execSluiceTimeout (c : Nat) (tree : Bool) (idx : Nat) (s : State) : Out :=
  .next (if (episode s c tree idx).counts.isEmpty then dropTimer s (.sluiceTimeout c tree idx)
    else settleSluice (releaseSluice s c tree idx (missingWord s c tree idx)) c tree idx)

end Sys2Proof.Machine
end

