-- ==== Sys2Proof/Machine/Messages.lean ====
section
/-! DEFINITION. Endpoints and messages: SEND, RECV, RECVT, RACK, EPNEW, EPFREE, EPMOVE, and the arrival of messages and
inbox entries (spec/18_isa_tasks.md R300 to R311). -/

namespace Sys2Proof.Machine

/-- An endpoint name from a register value (R300). -/
def nameOf (w : Word) : Act Nat := do
  if fld w 63 32 ≠ 0 then taskArg w
  return fld w 31 0

/-- SEND: sends one to four words to an endpoint. (R304) -/
def execSend (d a b : Reg) (n : BitVec 2) (s : State) : Out :=
  issue (do
    checkOps [.src a, .grp b (n.toNat + 1), .dst d]
    let w ← src a
    let name ← nameOf w
    release .pk
    let ws ← group b (n.toNat + 1)
    let s ← get
    let c := coreOf s.cur
    if 16 ≤ (core s c).sendQ.length then dst d (result 1 0)
    else
      let m : Message := { name := name, at_ := name, words := ws, swid := (self s).swid, core := c, cid := cidOf s c, hop := 0 }
      set (post (modCore s c fun x => { x with sendQ := x.sendQ ++ [m] }) (.messageDelivery m))
      dst d (result 0 0)
    return .seq) s

/-- MESSAGE_DELIVERY: a message leaves the send queue and reaches a directory. (R303, R305) -/
def execMessageDelivery (m : Message) (s : State) : Out :=
  let s := if m.hop = 0 then modCore s m.core fun x => { x with sendQ := x.sendQ.erase m } else s
  .next (deliverMessage s m)

/-- INBOX_DELIVERY: an entry reaches a core's inbox. (R186, R263) -/
def execInboxDelivery (c : Nat) (e : Word) (s : State) : Out := .next (enterInbox s c e)

/-- R306: a receive: its answer now, or a wait. (DESIGN CHOICE, log entry 21) -/
def receive (d : Reg) (name limit : Nat) (timed : Bool) : Act Flow := do
  let s ← get
  let c := coreOf s.cur
  match recvNow s c (cidOf s c) name with
  | some r =>
    dst d r
    return .seq
  | none =>
    if timed ∧ limit = 0 then
      dst d (result 2 0)
      return .seq
    modify fun s => if timed then postTimer s (.recvtLimit s.cur) else s
    inside (.recv d name)

/-- RECV: waits for a message. (R306) -/
def execRecv (d a : Reg) (s : State) : Out :=
  issue (do
    checkOps [.src a, .dst d]
    let w ← src a
    let name ← nameOf w
    receive d name 0 false) s

/-- RECVT: waits for a message or a limit. (R306) -/
def execRecvt (d a b : Reg) (s : State) : Out :=
  issue (do
    checkOps [.src a, .src b, .dst d]
    let w ← src a
    let n ← src b
    let name ← nameOf w
    receive d name n.toNat true) s

/-- RECVT_LIMIT: a RECVT's limit has passed. (R306) -/
def execRecvtLimit (slot : Nat) (s : State) : Out :=
  let s := dropTimer s (.recvtLimit slot)
  .next (match thr s slot with
    | some t => match waitOf t with
      | some (.recv d _) => complete s slot [(d.toNat, result 2 0)]
      | _ => s
    | none =>
      let hit := fun (x : Saved) => if awayKey x.thread = slot then match waitOf x.thread with
          | some (.recv d _) => some (completedSaved s.nextTx x [(d.toNat, result 2 0)])
          | _ => none
        else none
      let cores := (s.saved.filter fun x => (hit x).isSome).map fun x => Event.slotGrant x.core
      postAll { tick s with saved := s.saved.map fun x => (hit x).getD x } cores)

/-- R303, R307: HEAD incremented at the ring's storage; the directory's copy follows, its update on its way.
(DESIGN CHOICE, log entry 21) -/
def ackHead (s : State) (name : Nat) (e : Endpoint) (o : Operand) : State :=
  let h := (e.head + 1) % 2 ^ 32
  let s := hwStore s (ringPlace e o 8) (leBytes 8 h)
  post (setEp s name { e with head := h, sent := e.sent.drop 1 }) (.headCopy name h)

/-- R303, R307: RACK's update of HEAD reaches the directory, whose copy never runs ahead of the ring's; as many overflow
messages as it frees slots move in. -/
def execHeadCopy (name head : Nat) (s : State) : Host.Outcome State Fault Refusal :=
  .next (match find (die s (epDie name)).eps (epIdx name) with
    | some e =>
      let freed := (head + 2 ^ 32 - e.headCopy) % 2 ^ 32
      if e.tag = epTag name && decide (freed ≤ (e.head + 2 ^ 32 - e.headCopy) % 2 ^ 32) then
        wakeRecv (copyIn (setEp s name { e with headCopy := head }) name e.cid e.ovf.length freed)
      else s
    | none => s)

/-- RACK: acknowledges the oldest message. (R307) -/
def execRack (d a : Reg) (s : State) : Out :=
  issue (do
    checkOps [.src a, .dst d]
    let w ← src a
    let name ← nameOf w
    let s ← get
    let c := coreOf s.cur
    let cid := cidOf s c
    match (epLead s cid maxStubs name).bind fun n => (epFind s cid n).map fun e => (n, e) with
    | none => dst d (result 5 0)
    | some (n, e) =>
      match recvNow s c cid name, e.local_ with
      | none, _ => dst d (result 3 0)
      | some r, some o =>
        if fld r 63 56 = 0 then
          set (ackHead s n e o)
          dst d (result 0 0)
        else dst d r
      | some r, none => dst d r
    return .seq) s

/-- A ring's segment and offset resolved, and checked once as class load and store: step 3 of R20 asks for both rights before
the steps that follow (R24, R301). -/
def ringOperand (sg : Nat) (off size : Nat) (kinds : List Kind) : Act Operand := do
  let t ← me
  let g := segOf t sg
  if g.kind = .null then trap 0x10 (word sg)
  if !kinds.contains g.kind then trap 0x11 (word sg)
  if !rightsOk .load g.s0 then trap 0x12 (word off)
  let r ← address sg .store (word off) size 128
  return { kind := r.kind, tgt := r.tgt, addr := r.addr, base := g.base, limit := g.limit }

/-- An endpoint block's rings and owner. -/
structure EpBlock where
  bind_ : Bool
  local_ : Option Operand
  ln : Nat
  overRing : Option Operand
  on_ : Nat
  own : Nat
  deriving DecidableEq, Repr

/-- R301: an endpoint block read and checked. A ring length that no ring has, and a local ring with BIND = 0, are refused as a
reserved bit of their word is. (DESIGN CHOICE, log entry 51) -/
def epBlock (w : Word) (bound : Bool) : Act EpBlock := do
  if fld w 60 52 ≠ 0 then taskArg w
  let b ← readBlock (fld w 63 61) (word (fld w 51 0)) 4
  let w0 := b.getD 0 0
  let w1 := b.getD 1 0
  let w2 := b.getD 2 0
  let w3 := b.getD 3 0
  let bind_ := bound || bitOf w2 0
  let ln := fld w0 60 56
  let on_ := fld w1 60 56
  if bind_ then
    if fld w0 55 52 ≠ 0 ∨ ln = 0 ∨ 10 < ln then taskArg 0
  else if w0 ≠ 0 then taskArg 0
  if fld w1 55 52 ≠ 0 ∨ 16 < on_ then taskArg 1
  if fld w2 63 1 ≠ 0 then taskArg 2
  if fld w3 63 32 ≠ 0 then taskArg 3
  let loc ← if bind_ then do
      let o ← ringOperand (fld w0 63 61) (fld w0 51 0) (64 + 64 * 2 ^ ln) [.core, .clus]
      pure (some o)
    else pure none
  let ov ← if on_ ≠ 0 then do
      let o ← ringOperand (fld w1 63 61) (fld w1 51 0) (64 + 64 * 2 ^ on_) [.glob]
      pure (some o)
    else pure none
  return { bind_ := bind_, local_ := loc, ln := ln, overRing := ov, on_ := on_, own := fld w3 31 0 }

/-- The lowest free directory entry of a die. -/
def freeEntry (s : State) (d : Nat) : Option Nat :=
  scan (fun i => match find (die s d).eps i with
    | some e => e.st == .free
    | none => true) 65536 0

/-- The tag that an entry has now. -/
def tagNow (s : State) (d i : Nat) : Nat := ((find (die s d).eps i).map fun e => e.tag).getD 0

/-- A ring's header zeroed, and the overflow ring's indices (R302). -/
def clearHeader (s : State) (e : Endpoint) : State :=
  let s := overStore s e 0 (List.replicate 64 0)
  match e.local_ with
  | some o => hwStore s (ringPlace e o 0) (List.replicate 64 0)
  | none => s

/-- The directory entry that a block describes, owned by the issuing thread or waiting for its owner. -/
def newEntry (s : State) (tag : Nat) (b : EpBlock) : Endpoint :=
  let c := coreOf s.cur
  { st := if b.bind_ then .placed else .unplaced, tag := tag, cid := cidOf s c,
    owner := if b.bind_ then (self s).swid else b.own, slot := if b.bind_ then some s.cur else none, core := c,
    local_ := b.local_, ln := b.ln, overRing := b.overRing, on_ := b.on_, head := 0, headCopy := 0, tail := 0, sent := [],
    ovTail := 0, ovf := [], stub := 0 }

/-- EPNEW: makes an endpoint. (R301, R308) -/
def execEpnew (d a : Reg) (s : State) : Out :=
  issue (do
    checkOps [.src a, .dst d]
    let w ← src a
    let b ← epBlock w false
    let s ← get
    let dd := dieOf (coreOf s.cur)
    match freeEntry s dd with
    | none => dst d (result 4 0)
    | some i =>
      let tag := tagNow s dd i
      let e := newEntry s tag b
      set (setEp (clearHeader s e) (epName dd tag i) e)
      dst d (result 0 (epName dd tag i))
    return .seq) s

/-- EPFREE: frees exactly the entry that a name holds. (R310) -/
def execEpfree (d a : Reg) (s : State) : Out :=
  issue (do
    checkOps [.src a, .dst d]
    let w ← src a
    let name ← nameOf w
    let s ← get
    match epFind s (cidOf s (coreOf s.cur)) name with
    | some e =>
      set (wakeRecv (freeEp s name e))
      dst d (result 0 0)
    | none => dst d (result 5 0)
    return .seq) s

/-- The unacknowledged messages of a local ring, read from its slots, each with the name as sent (R302, R304). -/
def ringMessages (s : State) (name : Nat) (e : Endpoint) : List Message :=
  match e.local_ with
  | none => []
  | some o =>
    (List.range ((e.tail + 2 ^ 32 - e.head) % 2 ^ 32)).map fun i =>
      let at_ := ringPlace e o (64 + 64 * ((e.head + i) % 2 ^ e.ln))
      let h := mem64 s.mem at_
      { name := e.sent.getD i name, at_ := name, words := (List.range (fld h 9 8 + 1)).map (fun k => mem64 s.mem (at_ + 8 + 8 * k)),
        swid := fld h 63 32, core := fld h 26 16, cid := e.cid, hop := fld h 2 0 }

/-- R309: messages copied in order into the rings of an entry: into the local ring while it has room and nothing has
overflowed, then into the overflow ring; the rest bounce. Those that had only overflowed are checked against the permission
table as they enter a local ring (R303). -/
def refill (s : State) (name cid : Nat) (checked : Bool) (ms : List Message) : State :=
  ms.foldl (fun s m => match epFind s cid name with
    | none => s
    | some e =>
      if ringFree e && e.ovf.isEmpty then
        if checked || msgAllowed s e m then putLocal s name e m else bounce s m 10
      else putOver s name e m) s

/-- EPMOVE: rebinds an endpoint to the issuing thread and new rings. (R309) -/
def execEpmove (d a b : Reg) (s : State) : Out :=
  issue (do
    checkOps [.src a, .src b, .dst d]
    let w ← src a
    let v ← src b
    let name ← nameOf w
    let blk ← epBlock v true
    let s ← get
    let c := coreOf s.cur
    let cid := cidOf s c
    match (epLead s cid maxStubs name).bind fun n => (epFind s cid n).map fun e => (n, e) with
    | none =>
      dst d (result 5 0)
      return .seq
    | some (n, e) =>
      let ms := ringMessages s n e
      let copy := fun (x : State) (m : Nat) => wakeRecv (refill (refill x m cid true ms) m cid false e.ovf)
      if epDie n = dieOf c then
        let e' := newEntry s e.tag blk
        set (copy (setEp (clearHeader s e') n e') n)
        dst d (result 0 n)
      else
        match freeEntry s (dieOf c) with
        | none => dst d (result 4 0)
        | some i =>
          let tag := tagNow s (dieOf c) i
          let n' := epName (dieOf c) tag i
          let e' := newEntry s tag blk
          let s := setEp (setEp (clearHeader s e') n' e') n { e with st := .moved, stub := n', slot := none, ovf := [] }
          set (copy s n')
          dst d (result 0 n')
      return .seq) s

end Sys2Proof.Machine
end

