-- ==== Sys2Proof/Machine/Tables.lean ====
section
/-! DEFINITION. Tabled calls and the answer table's instructions (spec/20_answer_table.md R313 to R335,
spec/21_prog_reach.md R336). -/

namespace Sys2Proof.Machine

/-- TABLE-ARG with the offending value (R319). -/
def tableArg {α : Type} (v : Word) : Act α := trap 0x20 v

/-- The table die of the issuing thread (R313). -/
def myDie (s : State) : Nat := dieOf (coreOf s.cur)

/-- The callee address of an offset in sg7 (R314). -/
def calleeOf (s : State) (off : Word) : Nat := ((segOf (self s) 7).base + off.toNat) % 2 ^ 52

/-- Two result registers written: a status and a second word. -/
def pairResult (d : Reg) (st : Nat) (v : Word) : Act Unit := setGroupRegs d [word st, v]

/-- Whether no cursor can be had: no record free, or 16 in the thread's list (R318). -/
def noCursor (s : State) : Bool := (freeCursor (tbl s (myDie s))).isNone || decide (16 ≤ (self s).cursors.length)

/-- A cursor on an entry at position 0, in the thread's list; its word. -/
def takeCursor (s : State) (dfn : Nat) : Option (State × Word) :=
  (newCursor (tbl s (myDie s)) (myDie s) dfn 0).map fun p =>
    (modSelf (modTbl s (myDie s) fun _ => p.1) fun t => { t with cursors := t.cursors ++ [p.2] }, p.2)

/-- A lookup touches an entry's recency (R315). -/
def touchEntry (s : State) (d dfn : Nat) : State :=
  modTbl s d fun t => { modEntries t (fun e => e.dfn == dfn) (fun e => { e with lru := t.clock }) with clock := t.clock + 1 }

/-- R321: what a call or look-up finds. -/
def foundEntry (d : Reg) (e : Entry) : Act Unit := do
  modify fun s => touchEntry s (myDie s) e.dfn
  let s ← get
  if e.st = .failed then pairResult d 5 0
  else if noCursor s then pairResult d 6 0
  else match takeCursor s e.dfn with
    | some (s', w) =>
      set s'
      pairResult d (if e.st = .complete then 2 else 3) w
    | none => pairResult d 6 0

/-- A call's key and callee, checked (R321). -/
def callKey (a b : Reg) (n : Nat) : Act (List Word × Word) := do
  let key ← group a n
  let t ← src b
  if t.toNat % 4 ≠ 0 then tableArg t
  return (key, t)

/-- The slice where a key has its home (R314). -/
def homeOfKey (d : Nat) (h : Word) : Nat := d * 64 + fld h 63 58

/-- The home slice of an entry of a die; none of an entry that is gone. -/
def homeOfDfn (s : State) (d dfn slice : Nat) : Bool := ((entryOf (tbl s d) dfn).map Entry.slice) == some slice

/-- The home slice of the entry that a cursor is on. -/
def homeOfCursor (s : State) (c : Word) (slice : Nat) : Bool :=
  ((find (tbl s (cursorDie c)).cursors (cursorRec c)).map fun r => homeOfDfn s (cursorDie c) r.entry slice).getD false

/-- TLOOK: looks an entry up without producing. (R321) (DEDUCED, log entry 42) -/
def execTlook (d a b : Reg) (n : BitVec 2) (s : State) : Out :=
  issue (do
    checkOps [.grp a (n.toNat + 1), .src b, .grp d 2]
    let (key, t) ← callKey a b (n.toNat + 1)
    let s ← get
    sendGate fun h => h == homeOfKey (myDie s) (placeHash (cidOf s (coreOf s.cur)) (calleeOf s t) key)
    match entryOfKey (tbl s (myDie s)) (cidOf s (coreOf s.cur)) (calleeOf s t) key with
    | some e => foundEntry d e
    | none => pairResult d 0 0
    return .seq) s

/-- R321: a miss: the entry OPEN in its home's set with a new group, a reserved cursor, and a frame.
(DEDUCED, log entry 42) -/
def produce (s : State) (d : Reg) (cid callee : Nat) (key : List Word) (ret : Word) : Except (Nat × Nat) State :=
  let dd := myDie s
  let h := placeHash cid callee key
  let sl := homeOfKey dd h
  let st := fld h 57 50
  if noCursor s then .error (6, 0)
  else if 1024 ≤ (self s).frames.length then .error (4, 3)
  else match lowestFree (tbl s dd).groups 1024 with
    | none => .error (4, 2)
    | some g =>
      match roomIn (tbl s dd) sl st with
      | none => .error (4, 1)
      | some t =>
        let e : Entry :=
          { st := .open_, cid := cid, callee := callee, key := key, slice := sl, set := st, dfn := t.dfn, grp := g, answers := [],
            cur := 0, cause := 0, lru := t.clock }
        let t' := { t with entries := t.entries ++ [e], dfn := t.dfn + 1, clock := t.clock + 1, groups := put t.groups g { p := 1, a := 0 } }
        let s := modTbl s dd fun _ => t'
        match takeCursor s e.dfn with
        | none => .error (6, 0)
        | some (s, w) =>
          let f : Frame := { die := dd, entry := e.dfn, ret := ret, d := d.toNat, cursor := w, inherited := false, dead := 0 }
          .ok (modSelf s fun t => { t with frames := f :: t.frames })

/-- TCALL: a tabled call: a hit gives a cursor, a miss begins to produce. (R321) (DEDUCED, log entry 42) -/
def execTcall (d a b : Reg) (n : BitVec 2) (s : State) : Out :=
  issue (do
    checkOps [.grp a (n.toNat + 1), .src b, .grp d 2]
    let (key, t) ← callKey a b (n.toNat + 1)
    let s ← get
    let cid := cidOf s (coreOf s.cur)
    sendGate fun h => h == homeOfKey (myDie s) (placeHash cid (calleeOf s t) key)
    match entryOfKey (tbl s (myDie s)) cid (calleeOf s t) key with
    | some e =>
      foundEntry d e
      return .seq
    | none =>
      match produce s d cid (calleeOf s t) key ((self s).pc + 4) with
      | .error (st, v) =>
        pairResult d st (word v)
        return .seq
      | .ok s' =>
        set s'
        return .goto t) s

/-- The innermost frame, or TABLE-STATE (R319). -/
def topFrame : Act Frame := do
  let t ← me
  match t.frames with
  | f :: _ => return f
  | [] => trap 0x21 0

/-- R326: every snapshot parked on an entry becomes runnable, and is sent to its core. -/
def runSnaps (s : State) (d dfn : Nat) : State :=
  let is_ := ((tbl s d).snaps.filter fun x => x.2.entry == dfn && !x.2.runnable).map Prod.fst
  is_.foldl (fun s i =>
    let s := match groupOfDfn (tbl s d) dfn with
      | some g => modGroup s d g fun x => { x with a := x.a + 1 }
      | none => s
    let s := modTbl s d fun t => match find t.snaps i with
      | some n => { t with snaps := put t.snaps i { n with runnable := true } }
      | none => t
    post s (.snapshotRestore d i)) s

/-- R316, R322: an answer appended to an entry; a set whose ways 12 to 15 it takes for answers loses the lines in them. -/
def storeAnswer (s : State) (d : Nat) (e : Entry) (ws : List Word) : State :=
  let sets := (heldBytes s e.slice + 511) / 512
  let s := modTbl s d fun t => modEntries t (fun x => x.dfn == e.dfn) fun x => { x with answers := x.answers ++ [ws] }
  if 512 * sets < heldBytes s e.slice ∧ sets < 512 then vacate s e.slice sets else s

/-- R322: an answer appended, a duplicate, or a failure; the state and the result. -/
def answer (s : State) (f : Frame) (ws : List Word) : State × Nat :=
  if f.dead ≠ 0 then (s, 2)
  else match entryOf (tbl s f.die) f.entry with
    | none => (s, 2)
    | some e =>
      if e.answers.contains ws then (s, 1)
      else if e.answers.length = 16777215 || !hasStorage s f.die e.slice ws.length then (failGroup s f.die e.grp 4, 2)
      else
        let s := storeAnswer s f.die e ws
        (runSnaps (wakeTnext s f.die) f.die f.entry, 0)

/-- TANS: appends an answer to the innermost frame's entry. (R322) (DEDUCED, log entry 42) -/
def execTans (d a : Reg) (n : BitVec 2) (s : State) : Out :=
  issue (do
    checkOps [.grp a (n.toNat + 1), .dst d]
    let f ← topFrame
    let ws ← group a (n.toNat + 1)
    release .di
    let s ← get
    sendGate (homeOfDfn s f.die f.entry)
    let p := answer (← get) f ws
    set p.1
    dst d (word p.2)
    return .seq) s

/-- R182, R323: a frame's end that writes its caller's registers waits for their pending results. -/
def frameGate (f : Frame) : Act Unit := do
  let t ← me
  if !f.inherited && (busyX t f.d || busyX t (f.d + 1)) then hold

/-- R323: the cursor reserved at a miss stands at position 0 when it is given, wherever the callee has led it. -/
def rewind (t : Table) (r : Nat) : Table :=
  match find t.cursors r with
  | some c => { t with cursors := put t.cursors r { c with pos := 0 } }
  | none => t

/-- R323: the innermost frame popped and ended: the caller goes on, or an activation ends. (DEDUCED, log entry 42) -/
def endFrame (f : Frame) : Act Flow := do
  setMe fun t => { t with frames := t.frames.drop 1 }
  let drop := modify fun s =>
    if f.dead ≠ 0 then s
    else match groupOfDfn (tbl s f.die) f.entry with
      | some g => checkGroup (modGroup s f.die g fun x => if f.inherited then { x with a := x.a - 1 } else { x with p := x.p - 1 }) f.die g
      | none => s
  if f.inherited then
    drop
    modify fun s => endThread s s.cur false
    return .stay
  else if f.dead = 0 then
    drop
    if (← me).cursors.contains f.cursor then modify fun s => modTbl s f.die fun t => rewind t (cursorRec f.cursor)
    setMe fun t => wrRegs t [(f.d, 1), (f.d + 1, f.cursor)]
    return .goto f.ret
  else
    if (← me).cursors.contains f.cursor then
      modify fun s => modTbl s f.die fun t => dropCursor t (cursorRec f.cursor)
    setMe fun t => wrRegs { t with cursors := t.cursors.erase f.cursor } [(f.d, 5), (f.d + 1, 0)]
    return .goto f.ret

/-- TRET: ends the innermost frame. (R323) -/
def execTret (s : State) : Out :=
  issue (do
    let f ← topFrame
    frameGate f
    release .di
    endFrame f) s

/-- TERR: fails the innermost frame's group and ends the frame. (R324) -/
def execTerr (s : State) : Out :=
  issue (do
    let f ← topFrame
    frameGate f
    release .di
    modify fun s =>
      if f.dead ≠ 0 then s
      else match groupOfDfn (tbl s f.die) f.entry with
        | some g => failGroup s f.die g 2
        | none => s
    endFrame { f with dead := if f.dead = 0 then 2 else f.dead }) s

/-- R326: a fork's outcome by the completion unit, once the cursor is exhausted on an OPEN entry: the result words.
(DEDUCED, log entry 42) -/
def fork (s : State) (d a : Reg) (c : Word) (f : Frame) : State × List Word :=
  let dd := myDie s
  let t := tbl s dd
  let rec_ := find t.cursors (cursorRec c)
  match rec_.bind fun r => entryOf t r.entry with
  | none => (s, tnextWords 3 [])
  | some e =>
    let pos := (rec_.map fun r => r.pos).getD 0
    let g := if f.dead = 0 then groupOfDfn t f.entry else none
    match lowestFree t.snaps 8192, newCursor t dd e.dfn pos with
    | some i, some (t', w) =>
      if f.dead ≠ 0 then (s, tnextWords (f.dead * 2 ^ 16 + 3) [])
      else
        let th := self s
        let n : Snap :=
          { core := coreOf s.cur, pc := th.pc, d := d.toNat, areg := a.toNat, regs := th.regs, lsz := th.lsz, segs := th.segs,
            vp := th.vp, spt := th.spt, vrm := th.vrm, tvec := th.tvec, level := th.level, swid := th.swid, flotilla := th.flotilla,
            frame := { f with inherited := true }, cursor := w, entry := e.dfn, pos := pos, runnable := false }
        let s := match g with
          | some g => mergeGroups s dd g e.grp
          | none => s
        -- the merge changes entries and groups, the new cursor its records and the entry's CUR
        let s := modTbl s dd fun x => { modEntries x (fun y => y.dfn == e.dfn) (fun y => { y with cur := y.cur + 1 }) with
          cursors := t'.cursors, snaps := put x.snaps i n }
        (s, tnextWords 2 [])
    | _, _ =>
      let s := match g with
        | some g => failGroup s dd g 3
        | none => s
      let s := match entryOf (tbl s dd) e.dfn with
        | some e => failGroup s dd e.grp 3
        | none => s
      (s, tnextWords (3 * 2 ^ 16 + 3) [])

/-- TNEXT: the next answer at a cursor, a wait for it, or a fork; a thread that may fork waits for its results first, which a
snapshot of its window is to hold (R182, R326). (DEDUCED, log entry 42) -/
def execTnext (d a : Reg) (s : State) : Out :=
  issue (do
    checkOps [.src a, .grp d 5]
    let c ← src a
    let t ← me
    if !t.cursors.contains c then tableArg c
    if !t.frames.isEmpty then
      if !t.results.isEmpty then hold
      release .di
    let s ← get
    let dd := cursorDie c
    sendGate (homeOfCursor s c)
    match tnextDecide (tbl s dd) (cursorRec c) with
    | some (ws, moved) =>
      if moved then set (modTbl s dd fun t => advance t (cursorRec c))
      setGroupRegs d ws
      return .seq
    | none =>
      match t.frames with
      | [] =>
        modify fun s => post s (.slotGrant (coreOf s.cur))
        inside (.tnext d c a.toNat)
      | f :: _ =>
        let p := fork s d a c f
        set p.1
        setGroupRegs d p.2
        return .seq) s

/-- TREL: releases a cursor. (R327) (DEDUCED, log entry 42) -/
def execTrel (a : Reg) (s : State) : Out :=
  issue (do
    checkOps [.src a]
    let c ← src a
    let t ← me
    if !t.cursors.contains c then tableArg c
    let s ← get
    sendGate (homeOfCursor s c)
    modify fun s => modTbl s (cursorDie c) fun t => dropCursor t (cursorRec c)
    setMe fun t => { t with cursors := t.cursors.erase c }
    return .seq) s

/-! ### TCTL (R328) -/

/-- The counts of a partition on a die. -/
def tableStat (t : Table) (cid : Nat) (sel : Nat) : Word :=
  if sel = 0 then
    let mine := t.entries.filter fun e => e.cid == cid
    let has := fun (dfn : Nat) => mine.any fun e => e.dfn == dfn
    let snp := (t.snaps.filter fun x => has x.2.entry).length
    let grp := (t.groups.filter fun g => mine.any fun e => e.grp == g.1 && e.st == .open_).length
    let opn := (mine.filter fun e => e.st == .open_).length
    word (snp * 2 ^ 48 + grp * 2 ^ 37 + opn * 2 ^ 18 + mine.length)
  else word ((find t.evict cid).getD 0 * 2 ^ 32 + (find t.fails cid).getD 0)

/-- FLUSH-CALLEE on a die: the table and the result. -/
def flushCallee (t : Table) (cid callee : Nat) : Table × Word :=
  let mine := fun (e : Entry) => e.cid == cid && e.callee == callee
  let gone := fun (e : Entry) => mine e && e.st == .complete && e.cur == 0
  let freed := (t.entries.filter gone).length
  let kept := (t.entries.filter fun e => mine e && !gone e).length
  ({ t with entries := t.entries.filter fun e => !gone e },
    word ((if 65535 < kept then 65535 else kept) * 2 ^ 32 + freed))

/-- R33, R328: every entry of a partition leaves a die's table: OPEN ones fail, every other one is freed and its cursors are
marked failed, and then the waiters are woken; how many were freed. -/
def flushCidDie (s : State) (cid d : Nat) : State × Nat :=
  let shut := ((tbl s d).entries.filter fun e => e.cid == cid && e.st != .open_).map Entry.dfn
  let gs := (((tbl s d).entries.filter fun e => e.cid == cid && e.st == .open_).map Entry.grp).eraseDups
  let s := gs.foldl (fun s g => failGroup s d g 5) s
  let s := modTbl s d fun t => { t with
    cursors := t.cursors.map fun c => if c.2.used && shut.contains c.2.entry && !c.2.failed then (c.1, { c.2 with failed := true, cause := 5 }) else c
    entries := t.entries.filter fun e => !shut.contains e.dfn }
  (wakeTnext s d, shut.length)

/-- FLUSH-CID on all four dies. (DEDUCED, log entry 22) -/
def flushCid (s : State) (cid : Nat) : State × Nat :=
  (List.range 4).foldl (fun p d => let q := flushCidDie p.1 cid d; (q.1, p.2 + q.2)) (s, 0)

/-- R328: TCTL of any operation. (DEDUCED, log entry 42) -/
def tctl (i : Instr) (d a b : Reg) : Act Flow := do
  checkOps [.src a, .src b, .dst d]
  let w ← src a
  let v ← src b
  if 3 ≤ w.toNat then tableArg w
  if w = 2 then needS i
  let s ← get
  let cid := cidOf s (coreOf s.cur)
  let mine := fun (h : Nat) => dieOfCluster h == myDie s
  if w = 0 then
    if 2 ≤ v.toNat then tableArg v
    sendGate mine
    dst d (tableStat (tbl s (myDie s)) cid v.toNat)
  else if w = 1 then
    sendGate mine
    let p := flushCallee (tbl s (myDie s)) cid (calleeOf s v)
    set (modTbl s (myDie s) fun _ => p.1)
    dst d p.2
  else
    if fld v 63 12 ≠ 0 then tableArg v
    sendGate fun _ => true
    let p := flushCid s (fld v 11 0)
    set p.1
    dst d (word (p.2 % 2 ^ 32))
  return .seq

/-- TCTL STAT: counts of the partition on the table die. (R328) -/
def execTctlStat (d a b : Reg) (s : State) : Out := issue (tctl (.tctlStat d a b) d a b) s

/-- TCTL FLUSH-CALLEE: frees complete entries of a callee. (R328) -/
def execTctlFlushCallee (d a b : Reg) (s : State) : Out := issue (tctl (.tctlFlushCallee d a b) d a b) s

/-- TCTL FLUSH-CID: frees every entry of a partition on all dies. (R33, R328) -/
def execTctlFlushCid (d a b : Reg) (s : State) : Out := issue (tctl (.tctlFlushCid d a b) d a b) s

end Sys2Proof.Machine
end

