-- ==== Sys2Proof/Machine/Jobs.lean ====
section
/-! DEFINITION. The job instructions and the job queue (spec/16_matrix.md R258 to R270, R274, R280, spec/10_encoding.md
R172, spec/13_isa_memory.md R218, spec/22_scheduling.md R347, R348). -/

namespace Sys2Proof.Machine

/-! ### Command words (R172, R267, R268, R270, R274, R280) -/

/-- The member cores of a gang command, if they are an aligned block of 1, 2, 4 or 8 (R268). -/
def memberBlock (c0 : Word) : Option (List Nat) :=
  let ms := (List.range 8).filter fun i => bitOf c0 (40 + i)
  let r := ms.length
  let b := ms.headD 0
  if (r == 1 || r == 2 || r == 4 || r == 8) && b % r == 0 && ms == (List.range r).map (b + ·) then some ms else none

/-- Whether the top 16 bits of an operand word are reserved and set. -/
def wideWord (w : Word) : Bool := fld w 63 48 != 0

/-- The first word of a command of which something holds. -/
def firstWord (p : List Bool) : Option Nat := p.idxOf? true

/-- R172: the first word of a command that breaks a reserved field (R267, R268, R270, R274, R280). -/
def reservedBad (c0 c1 c2 c3 : Word) : Option Nat :=
  match fld c0 7 0 with
  | 0x01 => firstWord [fld c0 56 16 != 0 || fld c0 14 8 != 0, wideWord c1, wideWord c2]
  | 0x04 => firstWord [fld c0 39 29 != 0 || fld c0 28 16 != 0 || fld c0 14 8 != 0, c1 != 0, c2 != 0, c3 != 0]
  | 0x05 => firstWord [fld c0 28 16 != 0 || fld c0 14 8 != 0, c1 != 0, c2 != 0, c3 != 0]
  | 0x11 => firstWord [fld c0 14 11 != 0, false, wideWord c2, wideWord c3]
  | 0x20 => firstWord [fld c0 17 16 != 0 || fld c0 14 8 != 0, wideWord c1, fld c2 58 48 != 0]
  | 0x21 => firstWord [fld c0 17 16 != 0 || fld c0 14 8 != 0, wideWord c1, fld c2 58 48 != 0]
  | n =>
    if n < 0x10 then firstWord [fld c0 14 10 != 0, false, wideWord c2, wideWord c3]
    else firstWord [fld c0 14 11 != 0, wideWord c1, wideWord c2, wideWord c3]

/-- The first word of MT.CTX that breaks a limit (R267). -/
def ctxBad (c0 c1 c2 c3 : Word) : Option Nat :=
  let sc := bitOf c0 61
  firstWord [fld c0 63 62 == 3 || fld c0 60 59 == 3, !sc && c1 != 0, !sc && c2 != 0, fld c3 1 0 != 0]

/-- Whether the handler windows of a gang command are illegal (R268). -/
def handlerBad (c0 : Word) : Bool := fld c0 37 34 == 0 || fld c0 37 34 == 15 || decide (16 < fld c0 33 29)

/-- The first word of MT.TERN or MT.BOOTH that breaks a limit (R268). -/
def ternBad (c0 c1 : Word) : Option Nat :=
  let kc := fld c0 28 23
  let nt := fld c0 22 16
  let r := (memberBlock c0).map List.length
  firstWord [r.isNone || handlerBad c0 || kc == 0 || decide (32 < kc) || kc % r.getD 1 != 0 || nt == 0 ||
      (decide (1 < nt) && fld c0 9 8 != 3),
    fld c1 63 48 % 16 != 0 || decide (fld c1 63 48 < 128 * kc)]

/-- The first word of MT.ZERO or MT.DRAIN that breaks a limit (R270). -/
def heldBad (zero : Bool) (c0 : Word) : Option Nat := firstWord [(memberBlock c0).isNone || (!zero && handlerBad c0)]

/-- The first word of a copy command that breaks a limit (R274). -/
def copyBad (c0 : Word) : Option Nat := firstWord [fld c0 9 8 == 0 && fld c0 63 16 != 0]

/-- The first word of a domain command that breaks a limit (R280). -/
def domainBad (reduce : Bool) (dev : Nat) (c0 c2 c3 : Word) : Option Nat :=
  let fmt := fld c2 63 61
  firstWord [fld c0 41 18 == 0 || (reduce && fld c0 63 58 != 0), false,
    if reduce then !(fmt == 1 || fmt == 2 || fmt == 6) || fld c2 60 59 != 0 else fmt != 0,
    !bitOf c3 dev || (!reduce && !bitOf c3 (fld c0 63 58))]

/-- R261: the first word of a command that breaks one of its own field limits. -/
def limitBad (dev : Nat) (c0 c1 c2 c3 : Word) : Option Nat :=
  match fld c0 7 0 with
  | 0x01 => ctxBad c0 c1 c2 c3
  | 0x04 => heldBad true c0
  | 0x05 => heldBad false c0
  | 0x20 => domainBad true dev c0 c2 c3
  | 0x21 => domainBad false dev c0 c2 c3
  | n => if n < 0x10 then ternBad c0 c1 else copyBad c0

/-- The commands (R172). -/
def opcodes : List Nat := [0x01, 0x02, 0x03, 0x04, 0x05, 0x10, 0x11, 0x12, 0x13, 0x14, 0x20, 0x21]

/-- R172, R261: the first offending word of a command: an unassigned OPC, then the first of its reserved fields that is set,
and only then the first of its own limits that is broken. -/
def commandBad (dev : Nat) (c0 c1 c2 c3 : Word) : Option Nat :=
  if !opcodes.contains (fld c0 7 0) then some 0
  else (reservedBad c0 c1 c2 c3).orElse fun _ => limitBad dev c0 c1 c2 c3

/-! ### Operands (R24, R267) -/

/-- What a command asks of an operand: its field, its alignment unit, the extent checked at JSUB, its kinds and its
rights; none where the command does not use it. -/
structure OpSpec where
  field : Nat
  align : Nat
  size : Nat
  kinds : List Kind
  rd : Bool
  wr : Bool
  deriving DecidableEq, Repr

/-- The kinds of a copy's operands (R274). -/
def copyKinds : List Kind := [.core, .clus, .chip, .glob]

/-- The operands of a command (R267, R268, R274, R280). (DEDUCED, log entry 23) -/
def opSpecs (c0 c1 c2 c3 : Word) : List (Option OpSpec) :=
  let f := fun (w : Word) => fld w 47 0
  let copy := fun (src : Option Nat) (red : Bool) =>
    [if fld c0 9 8 = 0 then none else some { field := fld c0 63 16, align := 8, size := 72, kinds := copyKinds, rd := true, wr := true },
     src.map fun x => { field := x, align := 1, size := 1, kinds := copyKinds, rd := true, wr := false },
     some { field := f c2, align := 1, size := 1, kinds := copyKinds, rd := red, wr := true },
     some { field := f c3, align := 8, size := 1, kinds := copyKinds, rd := true, wr := false }]
  let extent := fld c0 41 18 * fmtSize ((fmtOf (fld c2 63 61)).getD .raw) (fld c2 60 59)
  let domain := fun (uses : Bool) =>
    [none,
     if uses then some { field := f c1, align := 1, size := extent, kinds := copyKinds, rd := true, wr := false } else none,
     some { field := f c2, align := 1, size := extent, kinds := copyKinds, rd := false, wr := true },
     none]
  match fld c0 7 0 with
  | 0x01 =>
    if bitOf c0 61 then
      [some { field := f c1, align := 2, size := 1, kinds := [.core], rd := true, wr := false },
       some { field := f c2, align := 2, size := 1, kinds := [.glob, .chip], rd := true, wr := false }]
    else [none, none]
  | 0x04 => []
  | 0x05 => []
  | 0x11 => copy none false
  | 0x14 => copy (some (f c1)) true
  | 0x20 => domain true
  | 0x21 => domain true
  | n =>
    if n < 0x10 then
      let r := ((memberBlock c0).map List.length).getD 1
      [some { field := f c1, align := 16, size := 63 * fld c1 63 48 + 128 * fld c0 28 23, kinds := [.core], rd := true, wr := false },
       some { field := f c2, align := 128, size := 1, kinds := [.glob, .chip], rd := true, wr := false },
       some { field := f c3, align := 128, size := r * 0x4880, kinds := [.clus], rd := true, wr := true }]
    else copy (some (f c1)) false

/-- R20, R267: the trap that an operand raises. (DEDUCED, log entry 23) -/
def operandTrap (t : Thread) (o : OpSpec) : Option (Nat × Word) :=
  let n := o.field / 2 ^ 45
  let off := o.field % 2 ^ 45
  let g := segOf t n
  if g.kind = .null then some (0x10, word n)
  else if !o.kinds.contains g.kind then some (0x11, word n)
  else if (o.rd && !bitOf g.s0 55) || (o.wr && !bitOf g.s0 56) then some (0x12, word off)
  else if off % o.align ≠ 0 then some (0x13, word off)
  else if g.limit < off + o.size then some (0x14, word off)
  else none

/-- An operand resolved (R24). (DEDUCED, log entry 23) -/
def resolved (t : Thread) : Option OpSpec → Operand
  | none => noOperand
  | some o =>
    let g := segOf t (o.field / 2 ^ 45)
    { kind := g.kind, tgt := g.tgt, addr := g.base + o.field % 2 ^ 45, base := g.base, limit := g.limit }

/-- The operands that a domain job really uses: a device that is not the root of a broadcast has no source (R280). -/
def usedSpecs (dev : Nat) (c0 : Word) (os : List (Option OpSpec)) : List (Option OpSpec) :=
  if fld c0 7 0 = 0x21 ∧ fld c0 63 58 ≠ dev then os.set 1 none else os

/-! ### Submitting (R261) -/

/-- The next identifier of a cluster's counter that is not 0 and not in use (R15); none where each of the 65,535 is in use.
(DESIGN CHOICE, log entry 5) -/
def nextJobId (jobs : List Job) (ctr : Nat) : Option Nat :=
  (scan (fun n => n % 2 ^ 16 != 0 && !jobs.any fun j => j.id == n % 2 ^ 16) (2 ^ 16) (ctr + 1)).map (· % 2 ^ 16)

/-- A job as JSUB creates it. -/
def newJob (id core slot flotilla : Nat) (c0 c1 c2 c3 : Word) (ops : List Operand) : Job :=
  { id := id, core := core, slot := slot, flotilla := flotilla, c0 := c0, c1 := c1, c2 := c2, c3 := c3, ops := ops,
    st := .queued, out := 0, fe := false, sat := false, hk := false, psn := false, ctx := none, step := 0, tiles := [],
    draining := false, rows := [], joined := [], desc := [], mask := [], nextUnit := 0, unacked := [], flight := [],
    acked := [], delivered := 0, bound := false, peers := none, hp := 0, parked := [], preempted := false, ended := false,
    recorded := false, taken := false }

/-- A gang job's tag. -/
def jobTag (j : Job) : Nat := fld j.c0 63 48

/-- The oldest thread of a core that waits in MGANG for a job with a tag, resident or saved: a change of its wait. -/
def gangCaller (s : State) (c tag : Nat) : Option (State → Nat → State) :=
  let is := fun (t : Thread) => match waitOf t with
    | some (.mgang _ g none) => g == tag
    | _ => false
  let wants := fun (t : Thread) (id : Nat) => match waitOf t with
    | some (.mgang d g none) => setWait t (.mgang d g (some id))
    | _ => t
  let live := (residents s c).filter fun p => is p.2
  let away := (s.saved.filter fun x => x.core == c && is x.thread).map fun x => x.thread.seqno
  let all := sortBy id (live.map (fun p => p.2.seqno) ++ away)
  all.head?.map fun q => fun s id =>
    { s with
      threads := s.threads.map fun p => if coreOf p.1 == c && is p.2 && p.2.seqno == q then (p.1, wants p.2 id) else p
      saved := s.saved.map fun x => if x.core == c && is x.thread && x.thread.seqno == q then { x with thread := wants x.thread id } else x }

/-- A core joins a gang job (R265): its slots are asked for, and the job may start. (DEDUCED, log entry 28) -/
def joinJob (s : State) (k id i : Nat) : State :=
  let s := modJob s k id fun j => { j with joined := if j.joined.contains i then j.joined else j.joined ++ [i] }
  post (wakeJob s k id) (.slotGrant (k * 8 + i))

/-- Threads that already wait for a tag join a new job (R265). -/
def joinCallers (s : State) (k : Nat) (j : Job) : State :=
  (jobMembers j).foldl (fun s i => match gangCaller s (k * 8 + i) (jobTag j) with
    | some f => joinJob (f s j.id) k j.id i
    | none => s) s

/-- R261, R348: a job enters its cluster's queue, and its wait begins to be counted. (DESIGN CHOICE, log entry 11) -/
def enterJob (s : State) (k id : Nat) (j : Job) : State :=
  let s := modCluster s k fun x => { x with jobs := x.jobs ++ [j], jobCtr := id }
  joinCallers (wakeJob (postTimer s (.jobAged k id)) k id) k j

/-- JSUB: submits a job, or traps, or returns 0 with the queue full; where every identifier of the cluster is in use, which
R15 leaves open, it returns 0 as well. (R121, R172, R261) (DESIGN CHOICE, log entry 5) -/
def execJsub (d a : Reg) (s : State) : Out :=
  issue (do
    checkOps [.grp a 4, .dst d]
    let c ← group a 4
    let c0 := c.getD 0 0
    let c1 := c.getD 1 0
    let c2 := c.getD 2 0
    let c3 := c.getD 3 0
    match commandBad (← get).pkg.dev c0 c1 c2 c3 with
    | some i => trap 0x1C (word i)
    | none => pure ()
    release .cl
    let t ← me
    let os := usedSpecs (← get).pkg.dev c0 (opSpecs c0 c1 c2 c3)
    match (os.filterMap id).findSome? (operandTrap t) with
    | some (code, v) => trap code v
    | none => pure ()
    let s ← get
    let core := coreOf s.cur
    let k := clusterOf core
    let x := cluster s k
    let full := decide (32 ≤ (x.jobs.filter fun j => j.st != .reported).length)
    match if full then none else nextJobId x.jobs x.jobCtr with
    | none => dst d 0
    | some id =>
      set (enterJob s k id (newJob id (core % 8) s.cur t.flotilla c0 c1 c2 c3 (os.map (resolved t))))
      dst d (word id)
    return .seq) s

/-! ### Taking and starting (R258, R348) -/

/-- The next core after the last served, in order, wrapping from 7 to 0.
(DESIGN CHOICE, log entry 5; DESIGN CHOICE, log entry 11) -/
def nextServed (last : Nat) (cs : List Nat) : Option Nat := ((List.range 8).map fun i => (last + 1 + i) % 8).find? cs.contains

/-- The jobs that an engine may take: each core's oldest waiting one, unless an earlier one of it still gathers. -/
def heads (s : State) (k : Nat) (matrix : Bool) : List Job :=
  let js := (cluster s k).jobs.filter fun j => isMatrix j == matrix && beforeStart j && !j.ended && !jobHeld s j
  (List.range 8).filterMap fun i => (js.find? fun j => j.core == i).filter fun j => j.st == .queued

/-- R258, R348: the job that an engine takes next. -/
def nextTaken (s : State) (k : Nat) (matrix : Bool) : Option Job :=
  let hs := heads s k matrix
  let pri := hs.filter fun j => bitOf j.c0 15 || j.aged
  let best := if pri.isEmpty then hs else pri
  let last := if matrix then (cluster s k).servedM else (cluster s k).servedC
  (nextServed last (best.map Job.core)).bind fun i => best.find? fun j => j.core == i

/-- Whether a job has ended and only its report is held back, while its flotilla is suspended (R361). -/
def reportHeld (s : State) (k : Nat) (j : Job) : Bool :=
  j.ended && j.unacked.isEmpty && j.hp == 0 && !rowsHeld s k j.id && jobHeld s j

/-- The copy unit's jobs that run or are stopped, at most four (R258): one that has ended runs until its report is sent, and
one that is stopped keeps its place. (DESIGN CHOICE, log entry 49) -/
def copyPlaces (s : State) (k : Nat) : Nat :=
  ((cluster s k).jobs.filter fun j => !isMatrix j && (j.st == .running || j.st == .stopped) && !reportHeld s k j).length

/-- A job taken from the queue. -/
def take (s : State) (k : Nat) (j : Job) (st : JobSt) : State :=
  let s := modCluster s k fun x => if isMatrix j then { x with servedM := j.core } else { x with servedC := j.core }
  kickEngine (modJob (dropTimer s (.jobAged k j.id)) k j.id fun j => { j with st := st }) k

/-- JOB_AGED: a job that has waited its limit since its JSUB counts as PRI. (R348) -/
def execJobAged (k id : Nat) (s : State) : Out :=
  .next (kickEngine (modJob (dropTimer s (.jobAged k id)) k id fun j => { j with aged := true }) k)

/-- R258: whether no other running matrix job shares a member with a job; one runs until its report is sent, its row handlers
having ended, and one that has saved its state for a pre-emption is stopped. -/
def membersFree (s : State) (k : Nat) (j : Job) : Bool :=
  let runs := fun (i : Job) => isMatrix i && (i.st == .running || (i.st == .stopped && !i.recorded)) && !reportHeld s k i
  !((cluster s k).jobs.any fun i => i.id != j.id && runs i && (jobMembers i).any (jobMembers j).contains)

/-- R258, R265: whether a gang job may start: every member has joined and holds its handler slots, and no running matrix job
shares a member (spec/17_prog_ternary.md). (DEDUCED, log entry 28) -/
def gangReady (s : State) (k : Nat) (j : Job) : Bool :=
  let ready := fun (i : Nat) => j.joined.contains i && decide (handlerSlots j ≤ heldSlots s (k * 8 + i) j.id)
  (jobMembers j).all ready && !jobHeld s j && membersFree s k j

/-- The threads that wait in MGANG for a started job go on where their core holds all its slots (R265). -/
def gangDone (s : State) (k id : Nat) : State :=
  match jobAt s k id with
  | none => s
  | some j =>
    if beforeStart j then s
    else completeGang s k id 0 fun c => j.ended || decide (handlerSlots j ≤ heldSlots s c id)

/-- SLOT_GRANT: free slots are given in order; joined gangs, resumed jobs and drained rows go on, and a launch that the slots of
a free cluster have kept waiting. (R265, R271, R344, R347) -/
def execSlotGrant (c : Nat) (s : State) : Out :=
  let k := clusterOf c
  let s := giveSlots s c
  let s := ((cluster s k).jobs.map Job.id).foldl (fun s id => gangDone s k id) s
  let back := (cluster s k).jobs.filter fun j => isMatrix j && j.st == .stopped && j.preempted && !jobHeld s j
  let s := postAll s (back.map fun j => .jobResume k j.id)
  let s := postAll s (((cluster s k).jobs.filter fun j => j.st == .gathering).map (jobEvent k))
  let s := if (cluster s k).flotilla = 0 then post s (.launchPlacement (cidOf s c)) else s
  let rows := (core s c).drain.any fun r => !r.started
  let free := (core s c).reserved.any fun r => !(thr s r.slot).isSome
  .next (if rows && free then post s (.rowHandlerStart c) else s)

/-! ### Asking, waiting, cancelling (R260, R262 to R264) -/

/-- R260: a request word read and checked. -/
def jobRequest (d a : Reg) (top : Nat) : Act Word := do
  checkOps [.src a, .dst d]
  let w ← src a
  if fld w 63 top ≠ 0 then trap 0x1E w
  return w

/-- JPOLL: the status word of a job. (R262, R263) -/
def execJpoll (d a : Reg) (s : State) : Out :=
  issue (do
    let w ← jobRequest d a 16
    let s ← get
    dst d (jobStatus s (coreOf s.cur) (fld w 15 0))
    return .seq) s

/-- A job's report taken out of an inbox, or out of the message channel where it waits for room. -/
def dropReport (s : State) (c id : Nat) : State :=
  let x := core s c
  if x.inbox.any (isReport id) then
    refillInbox (modCore s c fun x => { x with inbox := x.inbox.eraseP (isReport id) }) c
  else modCore s c fun x => { x with inboxOver := x.inboxOver.eraseP (isReport id) }

/-- JWAIT: takes a job's report, waiting for it; UNKNOWN at once. A report that has come for a waiting reader of `ib` is in
the inbox until that reader issues again, and may be taken. (R123, R263) (DESIGN CHOICE, log entry 48) -/
def execJwait (d a : Reg) (s : State) : Out :=
  issue (do
    let w ← jobRequest d a 16
    let s ← get
    let c := coreOf s.cur
    let id := fld w 15 0
    match knownJob s c id with
    | none =>
      dst d (jobStatus s c id)
      return .seq
    | some j =>
      let x := core s c
      if j.st = .reported ∧ ((x.inbox ++ x.inboxOver).any (isReport id)) = true then
        let v := jobStatus s c id
        set (wakeUnknown (takeReport (dropReport s c id) c id))
        dst d v
        return .seq
      else inside (.jwait d id)) s

/-- R264: the rows of a cancelled job that no handler has are discarded. -/
def discardRows (s : State) (k : Nat) (j : Job) : State :=
  (jobMembers j).foldl (fun s i => drainMore (modCore s (k * 8 + i) fun x =>
    { x with drain := x.drain.filter fun r => r.job != j.id || r.started }) (k * 8 + i)) s

/-- R264: the handlers of a job that have started, saved ones too, are ended as EXIT would end them. -/
def killHandlers (s : State) (k id : Nat) : State :=
  let hs := (s.threads.filter fun p => clusterOf (coreOf p.1) == k && (p.2.handler.map Prod.fst) == some id).map Prod.fst
  let away := s.saved.filter fun x => clusterOf x.core == k && (x.thread.handler.map Prod.fst) == some id
  let s := if hs.isEmpty && away.isEmpty then s else modJob s k id fun j => { j with hk := true }
  let s := away.foldl (fun s x => endSaved s x false) (hs.foldl (fun s slot => endThread s slot false) s)
  away.foldl (fun s x => post (recordFreed s x.core) (.slotGrant x.core)) s

/-- R264: a job cancelled by its state; one that makes no further step and has not reported shows RUNNING, and is cancelled too.
(DEDUCED, log entry 30) -/
def cancelJob (s : State) (k id : Nat) (kill : Bool) : State :=
  match jobAt s k id with
  | none => s
  | some j =>
    let stop := fun (s : State) => if kill then finishJob (killHandlers s k id) k id else finishJob s k id
    if j.st = .reported then s
    else if j.ended then
      let s := modJob s k id fun j => { j with out := 1, recorded := j.recorded && j.out != 0 }
      stop (freeSlots (discardRows s k j) k id)
    else if beforeStart j then endJob s k id 1
    else if isMatrix j then stop (endJob (loseHeld (discardRows s k j) k j) k id 1)
    else endJob s k id 1

/-- JCANCEL: the status word as it stands, and the job stopped. (R264) -/
def execJcancel (d a : Reg) (s : State) : Out :=
  issue (do
    let w ← jobRequest d a 17
    let s ← get
    let c := coreOf s.cur
    let id := fld w 15 0
    let v := jobStatus s c id
    match knownJob s c id with
    | some _ => set (cancelJob s (clusterOf c) id (bitOf w 16))
    | none => pure ()
    dst d v
    return .seq) s

/-- MGANG: joins the oldest gang job with a tag, reserves its handler slots, and waits for its start. (R265) -/
def execMgang (d a : Reg) (s : State) : Out :=
  issue (do
    let w ← jobRequest d a 16
    let s ← get
    let c := coreOf s.cur
    let k := clusterOf c
    let tag := fld w 15 0
    let fits := fun (j : Job) => isGang j && beforeStart j && !j.ended && jobTag j == tag &&
      (jobMembers j).contains (c % 8) && !j.joined.contains (c % 8)
    let j := (cluster s k).jobs.find? fits
    set (waitIn s s.cur (.mgang d tag (j.map Job.id)))
    match j with
    | some j => modify fun s => joinJob s k j.id (c % 8)
    | none => pure ()
    return .stay) s

/-- RDONE: waits as STL.cl, then frees its row and ends the handler. (R128, R266) -/
def execRdone (s : State) : Out :=
  issue (do
    if (← me).handler.isNone then trap 0x1E 0
    release .cl
    modify fun s => endThread s s.cur false
    return .stay) s

/-! ### Arrival streams (R127, R218) -/

/-- The first word of a copy's descriptor: as read at its start, or before that as it stands in memory.
(DEDUCED, log entry 29) -/
def descWord (s : State) (k : Nat) (j : Job) : Option Word :=
  match j.desc with
  | w :: _ => some w
  | [] =>
    let o := jobOp j 3
    if o.kind = .glob then partWord s (cluster s k).cid o.addr
    else some (mem64 s.mem (place (k * 8 + j.core) o.kind 0 o.addr))

/-- The element size of a copy's destination. -/
def destSize (s : State) (k : Nat) (j : Job) : Option Nat :=
  (descWord s k j).bind fun w => (fmtOf (fld w 56 54)).map fun f => fmtSize f (fld w 51 50)

/-- R218: the job that a request may bind an arrival stream to. -/
def bindable (s : State) (c id esz : Nat) : Option Job :=
  (knownJob s c id).filter fun j =>
    jobUnit j == 1 && bitOf j.c0 10 && !j.bound && destSize s (clusterOf c) j == some (elemSize esz)

/-- STRQ: binds an arrival stream to a copy job. (R218, R219) -/
def execStrq (d b : Reg) (s : State) : Out :=
  issue (do
    checkOps [.src b]
    let w ← src b
    let s ← get
    let c := coreOf s.cur
    let k := clusterOf c
    let id := fld w 15 0
    let esz := fld w 61 60
    if badRequest w || fld w 23 16 != 0 then trap 0x1D w
    match bindable s c id esz with
    | none => trap 0x1D w
    | some j =>
      let st : Stream :=
        { kind := .arrival, esz := esz, sg := 0, cnt := fld w 47 24, stride := 0, job := id, next := word j.delivered,
          elems := [], held := [] }
      bind_ d st
      modify fun s => endArrivals (modJob s k id fun j => { j with bound := true }) k id
    return .seq) s

end Sys2Proof.Machine
end

