-- ==== Sys2Proof/Machine/Copy.lean ====
section
/-! DEFINITION. The copy unit (spec/16_matrix.md R274 to R281, spec/08_order_engines.md R125 to R127, R130): the walk of
a command's elements, destination units, conversions and reductions, progress, and the domain's collectives. -/

namespace Sys2Proof.Machine

/-! ### Descriptors (R275) -/

/-- A dimension: count, source stride and destination stride. -/
structure Dim where
  cnt : Nat
  sstr : Int
  dstr : Int
  deriving DecidableEq, Repr

/-- What a copy does with each element. -/
structure Plan where
  sf : Fmt
  df : Fmt
  rm : Rm
  scale : BitVec 32
  esz : Nat
  wide : Bool                         -- INT64 indices
  ix : Nat
  dims : List Dim
  deriving DecidableEq, Repr

/-- The dimensions of a descriptor. -/
def dimsOf (ws : List Word) : Nat → List Dim
  | 0 => []
  | n + 1 =>
    { cnt := fld (ws.getD 0 0) 31 0, sstr := (ws.getD 1 0).toInt, dstr := (ws.getD 2 0).toInt } :: dimsOf (ws.drop 3) n

/-- R275, R276: a descriptor read as a plan; none where it stops the job with FAULT. -/
def planOf (opc : Nat) (ws : List Word) : Option Plan :=
  let w0 := ws.getD 0 0
  let w1 := ws.getD 1 0
  let nd := fld w0 63 60
  let bad := (List.range nd).any fun k => let c := ws.getD (2 + 3 * k) 0; fld c 63 32 != 0 || fld c 31 0 == 0
  match fmtOf (fld w0 59 57), fmtOf (fld w0 56 54) with
  | some sf, some df =>
    let p : Plan :=
      { sf := sf, df := df, rm := rmOf (fld w0 53 52), scale := BitVec.ofNat 32 (fld w0 31 0), esz := fld w0 51 50,
        wide := bitOf w1 63, ix := fld w1 51 0, dims := dimsOf (ws.drop 2) nd }
    if nd = 0 ∨ 9 < nd ∨ fld w0 49 32 ≠ 0 ∨ fld w1 62 52 ≠ 0 ∨ bad = true ∨ (sf = .raw ↔ df ≠ .raw) ∨
        (opc = 0x14 ∧ sf = .raw) ∨ ((opc = 0x12 ∨ opc = 0x13) ∧ p.ix % (if p.wide then 8 else 4) ≠ 0) then none
    else some p
  | _, _ => none

/-- The bytes of a source element. -/
def Plan.ss (p : Plan) : Nat := fmtSize p.sf p.esz
/-- The bytes of a destination element. -/
def Plan.ds (p : Plan) : Nat := fmtSize p.df p.esz
/-- How many elements a plan has. -/
def Plan.count (p : Plan) : Nat := p.dims.foldl (fun n d => n * d.cnt) 1
/-- How many elements a barge has (R125). -/
def Plan.perBarge (p : Plan) : Nat := 65536 / p.ds
/-- How many barges a plan has. -/
def Plan.barges (p : Plan) : Nat := (p.count + p.perBarge - 1) / p.perBarge

/-- The indices of an element, dimension 0 fastest (R276). -/
def indices : List Dim → Nat → List Nat
  | [], _ => []
  | d :: ds, i => i % d.cnt :: indices ds (i / d.cnt)

/-- A sum of products of indices and strides. -/
def strideSum (f : Dim → Int) (ds : List Dim) (es : List Nat) : Int :=
  ((ds.zip es).map fun x => x.2 * f x.1).foldl (· + ·) 0

/-! ### The walk (R276, R277) -/

/-- R277: an index of CP.GATH or CP.SCAT. -/
def readIndex (k id c : Nat) (dsc : Operand) (p : Plan) (e : Nat) : EM Int := do
  let n := if p.wide then 8 else 4
  let bs ← engineRead k id c dsc ((dsc.base + p.ix + n * e : Nat) : Int) n true
  return if p.wide then (word (leNat bs)).toInt else (BitVec.ofNat 32 (leNat bs)).toInt

/-- The offset of an element along strides, the last dimension's taken from the index array if so asked. -/
def elemOffset (k id c : Nat) (dsc : Operand) (p : Plan) (f : Dim → Int) (ixed : Bool) (i : Nat) : EM Int := do
  let es := indices p.dims i
  if ixed then
    let n := p.dims.length - 1
    let v ← readIndex k id c dsc p (es.getD n 0)
    return strideSum f (p.dims.take n) es + v * ((p.dims[n]?).map f).getD 0
  else return strideSum f p.dims es

/-- An element as the walk meets it: its number and destination address. -/
abbrev Walked := Nat × Int

/-- The destinations of consecutive elements. (DEDUCED, log entry 29) -/
def walkDst (k id c : Nat) (j : Job) (p : Plan) : Nat → Nat → EM (List Walked)
  | 0, _ => return []
  | n + 1, i => do
    let o ← elemOffset k id c (jobOp j 3) p Dim.dstr (jobOpc j == 0x13) i
    return (i, (jobOp j 2).addr + o) :: (← walkDst k id c j p n (i + 1))

/-- The lines that a barge writes, in the order in which its walk first meets them: unit j is line j (R125).
(DEDUCED, log entry 29) -/
def unitLines (ds : Nat) (ws : List Walked) : List Int :=
  ws.foldl (fun (ls : List Int) (w : Walked) =>
    let a : Int := w.2 / 128
    let b : Int := (w.2 + (ds : Int) - 1) / 128
    let ls := if ls.contains a then ls else ls ++ [a]
    if ls.contains b then ls else ls ++ [b]) ([] : List Int)

/-- The elements of a barge. (DEDUCED, log entry 29) -/
def bargeWalk (k id c : Nat) (j : Job) (p : Plan) (b : Nat) : EM (List Walked) :=
  walkDst k id c j p (Nat.min p.perBarge (p.count - b * p.perBarge)) (b * p.perBarge)

/-- A source element's bytes: the pattern of CP.FILL, or what is read (R274, R276). (DEDUCED, log entry 29) -/
def sourceElem (k id c : Nat) (j : Job) (p : Plan) (i : Nat) : EM (List Byte) := do
  if jobOpc j = 0x11 then return leBytes p.ss j.c1.toNat
  else
    let o ← elemOffset k id c (jobOp j 3) p Dim.sstr (jobOpc j == 0x12) i
    engineRead k id c (jobOp j 1) ((jobOp j 1).addr + o) p.ss true

/-- Cells kept so that a later one of the same address stands (R277). -/
def lastCells (cs : List (Nat × Byte)) : List (Nat × Byte) := cs.foldl (fun m c => put m c.1 c.2) []

/-- The elements of a unit converted: each with its destination and bytes. -/
def unitElems (k id c : Nat) (j : Job) (p : Plan) : List Walked → EM (List (Nat × Int × List Byte))
  | [] => return []
  | w :: ws => do
    let src ← sourceElem k id c j p w.1
    let bs := if jobOpc j = 0x14 then src else convertElem p.sf p.df p.rm p.scale src
    return (w.1, w.2, bs) :: (← unitElems k id c j p ws)

/-- Whether an element has bytes in a line. -/
def inLine (ds : Nat) (l : Int) (w : Walked) : Bool := decide (w.2 < 128 * l + 128) && decide (128 * l < w.2 + ds)

/-- R267, R276: whether a destination element may be written: within its operand's segment, and aligned for CP.RED, in whose
paragraph alone R276 asks it. (DESIGN CHOICE, log entry 51) -/
def mayWrite (j : Job) (p : Plan) (w : Walked) : Bool :=
  (jobOp j 2).holds w.2 p.ds && (jobOpc j != 0x14 || w.2 % p.ds == 0)

/-- The write that a unit makes. -/
def unitOp (j : Job) (p : Plan) (l : Int) (es : List (Nat × Int × List Byte)) : MemOp × List Nat :=
  if jobOpc j = 0x14 then
    let rs := es.map fun e => ({ off := e.2.1.toNat, src := e.2.2 } : RedElem)
    (.reduce p.sf p.df p.rm p.scale rs, rs.map RedElem.off)
  else
    let lo := (128 * l).toNat
    let cs := lastCells ((es.flatMap fun e => cellsAt e.2.1.toNat e.2.2).filter fun c => c.1 / 128 == lo / 128)
    (.write cs, cs.map Prod.fst)

/-- What a copy writes next, past the units that its record says are written (R125). (DESIGN CHOICE, log entry 10) -/
def nextToWrite (mask : List Nat) (n : Nat) (u : Nat) : Nat :=
  (scan (fun v => !mask.contains v) (n + 1) u).getD u

/-- The units of an element among a barge's lines. -/
def unitsOfElem (ds b : Nat) (ls : List Int) (w : Walked) : List Nat :=
  [ls.idxOf (w.2 / 128), ls.idxOf ((w.2 + ds - 1) / 128)].eraseDups.map fun x => 65536 * b + x

/-- Whether a copy feeds an arrival stream (R127, R274). -/
def feedsStream (j : Job) : Bool := bitOf j.c0 10

/-- Whether a resumed copy skips a unit: its record says that the unit has been written (R125). -/
def skips (j : Job) (u : Nat) : Bool := decide (u < 65536 * j.step) || j.mask.contains u

/-- R125, R126, R276: elements of one destination unit read and written in one write. -/
def writeElems (k id : Nat) (j : Job) (p : Plan) (u : Nat) (l : Int) (mine : List Walked) : EM (List (Nat × Int × List Byte)) := do
  let c := k * 8 + j.core
  if mine.any fun w => !mayWrite j p w then throw .refused
  let es ← unitElems k id c j p mine
  let (op, bytes) := unitOp j p l es
  engineWrite k id c u (jobOp j 2) op (bytes.foldl Nat.min (bytes.headD 0)) bytes
  return es

/-- R125: one destination unit written. -/
def writeUnit (k id : Nat) (j : Job) (p : Plan) (b x : Nat) (ws : List Walked) (ls : List Int) : EM Unit := do
  let l := ls.getD x 0
  let u := 65536 * b + x
  let _ ← writeElems k id j p u l (ws.filter (inLine p.ds l))
  modify fun s => modJob s k id fun q => { q with nextUnit := u + 1 }

/-! ### What an arrival stream is fed (R127, R218) -/

/-- The units of an element that this job has yet to write for it. -/
def unitsLeft (j : Job) (ds b : Nat) (ls : List Int) (w : Walked) : List Nat :=
  (unitsOfElem ds b ls w).filter fun u => !skips j u && !j.wrote.contains (u, w.1)

/-- R127: whether a resumed copy skips every unit of an element that the stream has not been given: it takes that element as
the destination holds it. (DEDUCED, log entry 29) -/
def toPass (j : Job) (ds b : Nat) (ls : List Int) (w : Walked) : Bool :=
  let us := unitsOfElem ds b ls w
  us.all (skips j) && !us.any fun u => j.wrote.contains (u, w.1)

/-- R218: the elements of an arrival stream's copy that are acknowledged and not taken, or on their way. -/
def elementsOut (j : Job) : List Nat := (j.acked.map Prod.fst ++ j.flight.map fun f => f.2.1).eraseDups

/-- R218: what of a unit is written next: its elements in order, as many as the copy unit can hold with those that it holds
or that are on their way. A unit of CP.RED is written whole, since R125 lets none be added twice; it waits while 16 are held,
unless the stream's next element is in it. (DEDUCED, log entry 29) -/
def partOf (j : Job) (p : Plan) (b u : Nat) (ws : List Walked) (ls : List Int) : List Walked :=
  let out := elementsOut j
  let left := ws.filter fun w => (unitsLeft j p.ds b ls w).contains u
  if jobOpc j = 0x14 then
    if out.length < 16 ∨ left.any (fun w => w.1 == j.delivered) then left else []
  else
    let new := (left.filter fun w => !out.contains w.1).take (16 - out.length)
    left.filter fun w => out.contains w.1 || new.contains w

/-- R125, R127: a part of a unit written, and what the stream will take of it noted: an element is delivered once all of its
units are acknowledged. -/
def writePart (k id : Nat) (j : Job) (p : Plan) (b u : Nat) (ws : List Walked) (ls : List Int) : EM Unit := do
  let mine := partOf j p b u ws ls
  let es ← writeElems k id j p u (ls.getD (u - 65536 * b) 0) mine
  let out := elementsOut j
  let new := (mine.zip es).filter fun m => !out.contains m.1.1
  let fl := new.flatMap fun m => (unitsLeft j p.ds b ls m.1).map fun v => (v, m.1.1, word (leNat m.2.2.2))
  let whole := ws.all fun w => !(unitsLeft j p.ds b ls w).contains u || mine.contains w
  modify fun s => modJob s k id fun q =>
    { q with
      flight := q.flight ++ fl
      wrote := q.wrote ++ mine.map fun w => (u, w.1)
      split := if whole then q.split.erase u else if q.split.contains u then q.split else q.split ++ [u] }

/-- R127: an element of units that a resumed copy skips goes to the stream. (DEDUCED, log entry 29) -/
def passElem (k id : Nat) (j : Job) (p : Plan) (b : Nat) (ls : List Int) (w : Walked) : EM Unit := do
  let bs ← engineRead k id (k * 8 + j.core) (jobOp j 2) w.2 p.ds true
  modify fun s => modJob s k id fun q =>
    { q with
      acked := q.acked ++ [(w.1, word (leNat bs))]
      wrote := q.wrote ++ (unitsOfElem p.ds b ls w).map fun u => (u, w.1) }

/-- R127, R218: the next step of a barge that feeds an arrival stream, in element order; false where every element has been
written or passed. One write of a unit is out at a time. (DEDUCED, log entry 29) -/
def feedStep (k id : Nat) (j : Job) (p : Plan) (b : Nat) (ws : List Walked) (ls : List Int) : EM Bool := do
  match ws.find? fun w => toPass j p.ds b ls w || !(unitsLeft j p.ds b ls w).isEmpty with
  | none => return false
  | some w =>
    let u := (unitsLeft j p.ds b ls w).headD 0
    if toPass j p.ds b ls w then
      if (elementsOut j).length < 16 then
        passElem k id j p b ls w
        modify fun s => wakeJob s k id
    else if !j.unacked.contains u && !(partOf j p b u ws ls).isEmpty then
      writePart k id j p b u ws ls
      modify fun s => wakeJob s k id
    return true

/-- Whether the copy has written all of its units: the next one lies beyond the last barge. -/
def allWritten (p : Plan) (u : Nat) : Bool := decide (p.barges ≤ u / 65536)

/-- Whether every unit of barge P is acknowledged: no lower unit is outstanding, unwritten or refused. -/
def bargeDone (p : Plan) (j : Job) : Bool :=
  decide (j.step < p.barges) && decide (65536 * (j.step + 1) ≤ j.nextUnit) &&
    !(j.unacked ++ j.lost).any fun u => decide (u < 65536 * (j.step + 1))

/-- R125: P advances past every barge whose units are all acknowledged. (DEDUCED, log entry 29) -/
def advanceBarge (p : Plan) : Nat → Job → Job
  | 0, j => j
  | n + 1, j =>
    if bargeDone p j then
      advanceBarge p n
        { j with
          step := j.step + 1
          mask := j.mask.filter fun u => decide (65536 * (j.step + 1) ≤ u)
          wrote := j.wrote.filter fun v => decide (65536 * (j.step + 1) ≤ v.1) }
    else j

/-- Whether a copy has begun the barge that it stands at (R125). -/
def bargeBegun (j : Job) : Bool := j.nextUnit % 65536 != 0 || j.wrote.any fun v => v.1 / 65536 == j.nextUnit / 65536

/-- R125: a barge has been written, and the next one begins. -/
def nextBarge (k id b : Nat) (p : Plan) : EM Unit := do
  modify fun s => modJob s k id fun q => advanceBarge p (p.barges + 1) { q with nextUnit := 65536 * (b + 1) }
  modify fun s => wakeJob s k id

/-- R125, R127: the copy makes its next step: the next unit written, or the next barge begun. It is not complete while it has
elements that it cannot hold (R218). -/
def copyStep (k id : Nat) (j : Job) (p : Plan) : EM Unit := do
  let b := j.nextUnit / 65536
  if allWritten p j.nextUnit then
    if j.unacked.isEmpty && decide (j.acked.length ≤ 16) then modify fun s => endJob s k id 0
  else if j.preempted && !bargeBegun j then
    if j.unacked.isEmpty then modify fun s => modJob s k id fun q => { q with st := .stopped }
  else
    let ws ← bargeWalk k id (k * 8 + j.core) j p b
    let ls := unitLines p.ds ws
    let x := nextToWrite (j.mask.map fun m => m - 65536 * b) ls.length (j.nextUnit % 65536)
    if feedsStream j then
      if !(← feedStep k id j p b ws ls) then nextBarge k id b p
    else if ls.length ≤ x then nextBarge k id b p
    else
      writeUnit k id j p b x ws ls
      modify fun s => wakeJob s k id

/-! ### Starting a copy (R275, R278) -/

/-- R275: the words of a descriptor that a job can work by. (DEDUCED, log entry 29) -/
def readDesc (k id : Nat) (j : Job) : EM (List Word) := do
  let c := k * 8 + j.core
  let o := jobOp j 3
  let w0 ← engineWord k id c o o.addr
  let nd := fld w0 63 60
  if nd = 0 ∨ 9 < nd then throw .refused
  let bs ← engineRead k id c o o.addr (8 * (2 + 3 * nd)) false
  let ws := (List.range (2 + 3 * nd)).map fun i => word (leNat ((bs.drop (8 * i)).take 8))
  if (planOf (jobOpc j) ws).isNone then throw .refused
  return ws

/-- R278: a job with RSM resumes from its record: P, and the units of barge P that are set in M. One that feeds an arrival
stream passes the units before P too (R127). -/
def readRecord (k id : Nat) (j : Job) : EM Unit := do
  let bs ← engineRead k id (k * 8 + j.core) (jobOp j 0) (jobOp j 0).addr 72 false
  let p := leNat (bs.take 8)
  let m := leNat (bs.drop 8)
  let us := ((List.range 512).filter fun i => m.testBit i).map fun i => 65536 * p + i
  let next := if feedsStream j then 0 else 65536 * p
  modify fun s => modJob s k id fun q => { q with step := p, mask := us, nextUnit := next, resumed := true }

/-- R275, R278: a copy that has been taken reads the record from which it resumes, and in a step of its own the descriptor; it
keeps that progress where the descriptor keeps it waiting or stops it. (DEDUCED, log entry 29) -/
def copyStart (k id : Nat) (j : Job) : EM Unit := do
  if bitOf j.c0 9 && !j.resumed then readRecord k id j
  else
    let ws ← readDesc k id j
    modify fun s => modJob s k id fun q => { q with desc := ws }
  modify fun s => wakeJob s k id

/-- A job taken by the copy unit when it is its turn and a place is free (R258); then its own step. -/
def copyTurn (s : State) (k id : Nat) (step : Job → EM Unit) : State :=
  match jobAt s k id with
  | none => s
  | some j =>
    if j.ended then finishJob s k id
    else if j.st = .queued then
      if copyPlaces s k < 4 && (nextTaken s k false).map Job.id == some id then
        wakeJob (take s k j .running) k id
      else s
    else if j.st = .running then runJob s k id (step j)
    else s

/-- What a copy job does at its turn. -/
def copyGo (k id : Nat) (j : Job) : EM Unit :=
  match j.desc with
  | [] => copyStart k id j
  | ws => match planOf (jobOpc j) ws with
    | some p => copyStep k id j p
    | none => throw .refused

/-- CP_COPY: elements copied and converted along the walk. (R276) -/
def execCpCopy (k id : Nat) (s : State) : Out := .next (copyTurn s k id (copyGo k id))
/-- CP_FILL: the destination filled with a pattern. (R274) -/
def execCpFill (k id : Nat) (s : State) : Out := .next (copyTurn s k id (copyGo k id))
/-- CP_GATH: indexed source offsets. (R277) -/
def execCpGath (k id : Nat) (s : State) : Out := .next (copyTurn s k id (copyGo k id))
/-- CP_SCAT: indexed destination offsets. (R277) -/
def execCpScat (k id : Nat) (s : State) : Out := .next (copyTurn s k id (copyGo k id))
/-- CP_RED: source elements added atomically into the destination. (R276) -/
def execCpRed (k id : Nat) (s : State) : Out := .next (copyTurn s k id (copyGo k id))

/-! ### Acknowledgements (R122, R125, R127) -/

/-- R127: the elements of an acknowledged unit, each once all its units are; those of CP.RED, which lie in one unit, with
the sums that the destination has taken. (DEDUCED, log entry 29) -/
def arriveUnit (j : Job) (u ds : Nat) (sums : List Byte) : Job :=
  let took := fun (f : Nat × Nat × Word) => f.1 == u && j.wrote.contains (u, f.2.1)
  let fl := j.flight.filter fun f => !took f
  let mine := (j.flight.filter took).zipIdx.map fun f =>
    if sums.isEmpty then f.1.2 else (f.1.2.1, word (leNat ((sums.drop (ds * f.2)).take ds)))
  { j with flight := fl, acked := j.acked ++ mine.filter fun e => !fl.any fun g => g.2.1 == e.1 }

/-- A job with a write of a unit acknowledged: the unit's bit is set once all of it is. (DEDUCED, log entry 29) -/
def ackUnit (j : Job) (u : Nat) (sums : List Byte) : Job :=
  let plan := planOf (jobOpc j) j.desc
  let j := arriveUnit j u ((plan.map Plan.ds).getD 1) sums
  let j := { j with unacked := j.unacked.erase u, mask := if u < 2 ^ 40 ∧ !j.split.contains u then j.mask ++ [u] else j.mask }
  match plan with
  | some p => if jobUnit j = 1 then advanceBarge p (p.barges + 1) j else j
  | none => j

/-- A job with a unit refused: its barge is never whole (R125). -/
def loseUnit (j : Job) (u : Nat) : Job :=
  { j with unacked := j.unacked.erase u, lost := j.lost ++ [u], flight := j.flight.filter fun f => f.1 != u }

/-- COPY_WRITE_ACK: an engine write acknowledged or refused; the progress record, the arrival stream and the report
follow. (R120, R122, R124, R125) -/
def execCopyWriteAck (ends : Hop) (id u : Nat) (ok hp : Bool) (red : Reduced) (s : State) : Out :=
  let k := ends.dest
  match jobAt s k id with
  | none => .next s
  | some j =>
    let note := fun (q : Job) => { q with psn := q.psn || red.poisoned, hp := if hp then q.hp + 1 else q.hp }
    if ok then
      let s := modJob s k id fun q => ackUnit (note q) u red.sums
      .next (if j.ended then finishJob s k id else wakeJob s k id)
    else
      let s := modJob s k id fun q => loseUnit (note q) u
      .next (finishJob (if u < 2 ^ 40 then endJob s k id 2 else s) k id)

/-! ### Domain collectives (R280, R281) -/

/-- A collective's tag. -/
def ctag (j : Job) : Nat := fld j.c0 57 42
/-- Its number of elements. -/
def domCount (j : Job) : Nat := fld j.c0 41 18
/-- Its root. -/
def domRoot (j : Job) : Nat := fld j.c0 63 58
/-- Its format. -/
def domFmt (j : Job) : Fmt := (fmtOf (fld j.c2 63 61)).getD .raw
/-- The bytes of its elements. -/
def domSize (j : Job) : Nat := fmtSize (domFmt j) (fld j.c2 60 59)

/-- R281: whether another job of the device with the same tag and set has not yet sent its report. -/
def collides (s : State) (k : Nat) (j : Job) : Bool :=
  s.clusters.any fun x => x.2.jobs.any fun i =>
    !(x.1 == k && i.id == j.id) && jobUnit i == 2 && i.st != .reported && !beforeStart i && ctag i == ctag j && i.c3 == j.c3

/-- The plan by which a domain job's elements lie in memory: contiguous, raw. -/
def domPlan (j : Job) : Plan :=
  let n := (domSize j : Int)
  { sf := .raw, df := .raw, rm := .rne, scale := 0, esz := Nat.log2 (domSize j), wide := false, ix := 0,
    dims := [{ cnt := domCount j, sstr := n, dstr := n }] }

/-- A sum of the fold of CP.AR (R280). -/
def foldStep (f : Fmt) (x y : List Byte) : List Byte := reduceElem f f .rne 0x3F800000 x y

/-- An element's final value: the fold in increasing device number, or the root's element (R280). -/
def domValue (j : Job) (dev : Nat) (own : List Byte) (peers : List Peer) (i : Nat) : List Byte :=
  let n := domSize j
  let val := fun (p : Peer) => (p.vals.getD i []) ++ List.replicate (n - (p.vals.getD i []).length) 0
  if jobOpc j = 0x21 then
    if domRoot j = dev then own else ((peers.find? fun p => p.dev == domRoot j).map val).getD (List.replicate n 0)
  else
    let all := sortBy Prod.fst ((dev, own) :: peers.map fun p => (p.dev, val p))
    match all with
    | [] => own
    | x :: xs => xs.foldl (fun acc y => foldStep (domFmt j) acc y.2) x.2

/-- The elements of a domain job's unit. -/
def domElems (k id c dev : Nat) (j : Job) (peers : List Peer) : List Walked → EM (List (Nat × Int × List Byte))
  | [] => return []
  | w :: ws => do
    let n := domSize j
    let own ← if jobOpc j = 0x20 ∨ domRoot j = dev then
        engineRead k id c (jobOp j 1) ((jobOp j 1).addr + w.1 * n : Nat) n true
      else pure []
    return (w.1, w.2, domValue j dev own peers w.1) :: (← domElems k id c dev j peers ws)

/-- R280: the destination's next unit is written, once the participants have met. -/
def domStep (k id : Nat) (j : Job) : EM Unit := do
  match j.peers with
  | none => pure ()
  | some peers =>
    let p := domPlan j
    let b := j.nextUnit / 65536
    let c := k * 8 + j.core
    if allWritten p j.nextUnit then
      if j.unacked.isEmpty then modify fun s => endJob s k id 0
    else
      let ws ← bargeWalk k id c j p b
      let ls := unitLines p.ds ws
      let x := j.nextUnit % 65536
      if ls.length ≤ x then modify fun s => modJob s k id fun q => { q with nextUnit := 65536 * (b + 1) }
      else
        let mine := ws.filter (inLine p.ds (ls.getD x 0))
        if mine.any fun w => !(jobOp j 2).holds w.2 p.ds then throw .refused
        let es ← domElems k id c (← get).pkg.dev j peers mine
        let (op, bytes) := unitOp j p (ls.getD x 0) es
        engineWrite k id c j.nextUnit (jobOp j 2) op (bytes.foldl Nat.min (bytes.headD 0)) bytes
        modify fun s => modJob s k id fun q => { q with nextUnit := j.nextUnit + 1 }
      modify fun s => wakeJob s k id

/-- R281: a domain job that has been taken reaches the I/O die: it stops if another with its tag and set is out, else
its participants are awaited for the domain timeout. -/
def domTurn (s : State) (k id : Nat) : State :=
  match jobAt s k id with
  | none => s
  | some j =>
    if j.ended then finishJob s k id
    else if j.st = .queued then
      if copyPlaces s k < 4 && (nextTaken s k false).map Job.id == some id then
        let s := take s k j .running
        if collides s k j then endJob s k id 2
        else if (List.range 64).all fun d => bitOf j.c3 d == (d == s.pkg.dev) then
          wakeJob (modJob s k id fun q => { q with peers := some [] }) k id
        else postTimer s (.collectiveTimeout k id)
      else s
    else if j.st = .running then runJob s k id (domStep k id j)
    else s

/-- CP_AR: all-reduces elements across the domain's devices. (R280) -/
def execCpAr (k id : Nat) (s : State) : Out := .next (domTurn s k id)
/-- CP_BCAST: broadcasts elements from the root device. (R280) -/
def execCpBcast (k id : Nat) (s : State) : Out := .next (domTurn s k id)

/-- Whether a participant states the same parameters (R281). -/
def agrees (j : Job) (p : Peer) : Bool :=
  p.opc == jobOpc j && p.cnt == domCount j && p.fmt == fld j.c2 63 61 && p.esz == fld j.c2 60 59 && p.root == domRoot j

/-- Whether participants are exactly the other devices of the set. -/
def whole (j : Job) (dev : Nat) (ps : List Peer) : Bool :=
  (List.range 64).all fun d => (d == dev) || (ps.any fun p => p.dev == d) == bitOf j.c3 d

/-- COLLECTIVE_MATCH: the jobs of a set meet and compare their parameters; any difference is FAULT. (R281)
(DESIGN CHOICE, log entry 16) -/
def execCollectiveMatch (k id : Nat) (ps : List Peer) (s : State) : Out :=
  match jobAt s k id with
  | none => .next s
  | some j =>
    if j.ended || jobUnit j != 2 || j.st != .running || j.peers.isSome || j.cutOff || !whole j s.pkg.dev ps then .next s
    else if ps.all (agrees j) then .next (wakeJob (modJob s k id fun q => { q with peers := some ps }) k id)
    else .next (endJob (dropTimer s (.collectiveTimeout k id)) k id 2)

/-- Bytes of the destination that a timeout leaves unspecified: free values where they can be written (R280).
(DESIGN CHOICE, log entry 10) -/
def wildByte (s : State) (k : Nat) (o : Operand) (c a : Nat) : State :=
  let v : Byte := (Config.freeValue s.fresh).setWidth 8
  let s := { s with fresh := s.fresh + 1 }
  match o.kind with
  | .glob => (partWrite s (cluster s k).cid a [v]).getD s
  | kd => (storeAt s (place c kd 0 a) [v]).1

/-- COLLECTIVE_TIMEOUT: a participant did not answer: TIMEOUT, and the destination holds unspecified values.
(R280, R281) (DESIGN CHOICE, log entry 10) -/
def execCollectiveTimeout (k id : Nat) (s : State) : Out :=
  let s := dropTimer s (.collectiveTimeout k id)
  match jobAt s k id with
  | none => .next s
  | some j =>
    if j.ended || jobUnit j != 2 || beforeStart j then .next s
    else
      let o := jobOp j 2
      let n := Nat.min (domCount j * domSize j) (o.base + o.limit - o.addr)
      let s := (List.range n).foldl (fun s i => wildByte s k o (k * 8 + j.core) (o.addr + i)) s
      .next (endJob s k id 4)

/-! ### Host-done replies (R115, R120) -/

/-- A thread that a host-done of an access no longer stands out for. -/
def hostAnswered (tx : Nat) (t : Thread) : Thread := { t with hostPending := t.hostPending.erase tx }

/-- HOST_DONE: a thread's or a job's host-pending count falls by one; a job may report. (R115, R120, R122, R131) -/
def execHostDone (owed : Owed) (s : State) : Out :=
  .next (match owed.who with
    | .engine k id _ => finishJob (modJob s k id fun j => { j with hp := j.hp - 1 }) k id
    | .device _ => s                  -- the count is the other device's own
    | _ => { s with
        cores := s.cores.map fun p => (p.1, { p.2 with goneOwed := p.2.goneOwed.erase owed.tx })
        threads := s.threads.map fun p => (p.1, hostAnswered owed.tx p.2)
        saved := s.saved.map fun x => { x with thread := hostAnswered owed.tx x.thread } })

end Sys2Proof.Machine
end

