-- ==== Sys2Proof/Machine/Fetch.lean ====
section
/-! DEFINITION. Instruction fetch (spec/02_address_spaces.md R23): through sg7 at the program counter, checked by R20. -/

namespace Sys2Proof.Machine

/-- What a fetch gives: a word with the state after it, an exact trap with its TVAL, or a wait or a park (nothing
issues). -/
inductive Fetched where
  | word (w : BitVec 32) (s : State)
  | trap (cause : Nat) (tval : Word)
  | stop (s : State)

/-- A fetch from a scratchpad or cluster-shared memory, which waits for absent words as a touch does (R61).
(DEDUCED, log entry 18) -/
def fetchHere (s : State) (r : Ref) : Fetched :=
  let a := place (coreOf s.cur) r.kind r.tgt r.addr
  match touchGate a 4 s with
  | .ok _ =>
    match wordOfBytes (readPlace s (self s) a 4) with
    | some w => .word w (noteReads s a 4)
    | none => .trap 0x01 0
  | .error (.wait w f) => .stop (waiting (f s) w)
  | .error (.trap c v _) => .trap c v

/-- The access that a fetch from global memory makes. -/
def fetchAccess (s : State) (r : Ref) : Access := access s (.fetch s.cur) r (.read 4) .th

/-- Whether a thread has waited for its fetch only: its instruction has not been fetched before. -/
def firstFetch (t : Thread) : Bool :=
  match t.status with
  | .ready => true
  | .wait (.fetch _) => true
  | _ => false

/-- A fetched word that its home does not hold: a read of memory, made once for the instruction (R40, R53): one that issues
again has been fetched, unless it was the fetch that waited. -/
def fetchMiss (s : State) (q : Access) : Fetched :=
  match wordOfBytes (msBytes s q.cid q.phys 4) with
  | some w =>
    let s := meet s q.phys 4
    .word w (if firstFetch (self s) then memAsk s (q.cache == 2) q.cid (q.phys / 128) else s)
  | none => .trap 0x01 0

/-- A fetch that has been translated: the word as its home has it, once the line awaits nothing (R110); a half that the host
owns is asked for first (R39, R119). A page that denies execution refuses the fetch as one that denies read refuses a load,
exactly, since nothing has issued (R208, R368). (DEDUCED, log entry 36) -/
def fetchHome (s : State) (e : TlbEntry) (q : Access) : Fetched :=
  let h := homeSlice q.home q.phys
  if !e.x then .trap 0x16 (refusedVal 2 (clusterOf q.core))
  else match lineAt s h q.cid (q.phys / 128) with
    | none => fetchMiss s q
    | some x =>
      if keptOut x q || !x.waiting.isEmpty then .stop (waiting s (.fetch q.tx))
      else match x.data with
        | none => fetchMiss s q
        | some _ =>
          if (halvesOf q.phys 4).any fun b => halfState x b == 2 then
            .stop (waiting (post (tick s) (.requestAtHome h q)) (.fetch q.tx))
          else match wordOfBytes (lineBytes x q.phys 4) with
            | some w => .word w (meet s q.phys 4)
            | none => .trap 0x01 0

/-- A fetch from global memory: translated at the cluster port by a TLB entry or a walk, which the thread waits for (R370,
R372); one whose translation is not present parks the thread (R175, R356). Outside M none reaches the context area (R359). It
stands behind a store of its core and page that is held on a fault (R209). (DEDUCED, log entry 36) -/
def fetchGlob (s : State) (r : Ref) : Fetched :=
  let q := fetchAccess s r
  let k := clusterOf q.core
  let ask := Fetched.stop (waiting (atPort (tick s) q) (.fetch q.tx))
  let x := cluster s k
  match tlbFind x.tlb q.cid q.addr, (self s).status with
  | some e, _ =>
    if x.faulted.any (samePage q) then ask
    else if !q.m && inCtxArea s q.cid q.addr then .trap 0x16 (refusedVal 2 k)
    else fetchHome (modCluster s k fun y => { y with tlb := tlbUse y.tlb e }) e (translated e q)
  | none, .wait (.fetch tx) => if portHas s k fun p => p.tx == tx then .stop s else ask
  | none, _ => ask

/-- R23: the fetch of the current slot's thread. (DEDUCED, log entry 36) -/
def fetch (s : State) : Fetched :=
  let t := self s
  match addrTrap s t 7 .fetch t.pc 4 4 with
  | some (c, v) => .trap c v
  | none =>
    let r := refAt t 7 t.pc 4
    if r.kind = .glob then fetchGlob s r else fetchHere s r

/-- The word that a slot's thread would fetch, for the choice of the half (R181): nothing where the fetch is no plain
read. -/
def peek (s : State) (slot : Nat) : Option (BitVec 32) :=
  match fetch { s with cur := slot } with
  | .word w _ => some w
  | _ => none

/-- A half of a core has picked a slot: its pointer stands there (R181), and the other half of the core comes next. -/
def turn (s : State) (slot : Nat) (w : BitVec 32) : State :=
  let k := slot % 64
  let ex := executeHalf w
  let pick := fun (x : Core) =>
    let x := if ex then { x with rotE := k, picksE := x.picksE + 1 } else { x with rotA := k, picksA := x.picksA + 1 }
    { x with issued := put x.issued k { picksA := x.picksA, picksE := x.picksE, ex := ex } }
  { modCore s (coreOf slot) pick with exHalf := !ex }

/-- R158 step 1: the trap of a word that is no instruction. (DEDUCED, log entry 36) -/
def illegalWord (s : State) (w : BitVec 32) : State :=
  enterTrap s s.cur 0x01 false (w.setWidth 64) 0 (self s).pc

end Sys2Proof.Machine
end

