-- ==== Sys2Proof/Machine/Arrivals.lean ====
section
/-! DEFINITION. What arrives: load data, acknowledgements, requests at homes and memories, probes, tows, and walks
(spec/03_hierarchy.md R39 to R55, spec/04_basins.md R61 to R68, spec/07_order_wide.md R109 to R116,
spec/09_towline.md R138 to R145, spec/26_translation.md R372). -/

namespace Sys2Proof.Machine

/-! ### At a core -/

/-- ASYNC_TRAP_DELIVERY: a pending asynchronous trap is taken before the thread's next instruction. (R353) -/
def execAsyncTrapDelivery (slot : Nat) (s : State) : Out := .next (deliverAsync s slot)

/-- A result written to its window register, and its lanes to the lane slices (R182, R237). -/
def deliverResult (s : State) (slot : Nat) (t : Thread) (r : Result) : State :=
  let t := { t with results := t.results.filter fun q => q.tx != r.tx }
  let t := match r.reg with
    | some (n, v) => wrReg t n v
    | none => t
  let s := setThr s slot t
  match r.vec with
  | some (v, ls) => writeWords s (laneWrites (coreOf slot) t v ls)
  | none => s

/-- OPERATION_RESULT: a delayed division or vector result reaches its destination. (R182) -/
def execOperationResult (slot tx : Nat) (s : State) : Out :=
  match thr s slot with
  | none => .next s
  | some t => match t.results.find? fun r => r.tx == tx with
    | some r => .next (deliverResult s slot t r)
    | none => .next s

/-- The domain timers that an answer stops (R116). (DESIGN CHOICE, log entry 16) -/
def dropDomain (s : State) (p : Access → Bool) : State :=
  let keep := fun (e : Event) => match e with
    | .domainTimeout r => !p r
    | _ => true
  { s with timers := s.timers.filter keep }

/-- Whether a thread waits inside a CFLUSH for an access (R221). -/
def inFlush (t : Thread) (tx : Nat) : Bool := waitOf t == some (.flush tx)

/-- R44, R89, R106: what a load data reply does to its core's L1 before it is delivered: the home has not probed it for the
thread's own atomic, so its copy of the line takes the new bytes, as it does when a store of the core drains. -/
def atomicReturns (s : State) (p : Piece) (reply : Reply) : State :=
  let r := p.acc
  match r.op, reply with
  | .atomic op n x y, .data old =>
    if r.kind = .glob ∧ r.cache = 0 then
      match atomicNew op (8 * n) (leNat old) x.toNat y.toNat with
      | some v => rereadLine (l1Update s r.core r.cid (cellsAt r.phys (leBytes n v))) r.core r.cid (r.phys / 128)
      | none => s
    else s
  | _, _ => s

/-- R106: an answer for a thread that has ended: if it was an atomic's, its core's copy of the line has not been probed. The
copies that may be of it are dropped, and what siblings have read of them and not delivered is read again (R100). -/
def dropOrphans (s : State) (c addr : Nat) : State :=
  let mayBe := fun (q : Nat × Nat) => q.2 % 512 == addr / 128 % 512
  let copies := (core s c).l1.map fun l => (l.cid, l.line)
  let ts := (s.threads.filter fun p => coreOf p.1 == c).map Prod.snd ++ (s.saved.filter fun x => x.core == c).map Saved.thread
  let read := ts.flatMap fun t => t.outs.flatMap fun o =>
    (o.pieces.filter fun p => p.acc.kind == .glob && p.acc.xlated).map fun p => (p.acc.cid, p.acc.phys / 128)
  ((copies ++ read).filter mayBe).eraseDups.foldl (fun s q => rereadLine (l1Drop s c q.1 q.2) c q.1 q.2) s

/-- LOAD_DATA_ARRIVES: a load, atomic or queue-load value, or its refusal, arrives at the thread; an HP mark says that a
host-done will follow. (R99, R115, R182, R208) -/
def execLoadDataArrives (ends : Hop) (tx addr : Nat) (got : Arrived) (s : State) : Out :=
  let slot := ends.dest
  let s := dropDomain s fun r => r.tx == tx
  let piece := (thr s slot).bind fun t => t.outs.findSome? fun o => o.pieces.find? fun p => p.acc.tx == tx
  match piece with
  | some p =>
    let s := if got.hp then oweHostDone s slot tx else s
    .next (deliverAll (modThr (atomicReturns s p got.reply) slot fun t => answerPiece t tx got.reply) slot)
  | none =>
    let s := atomGone s (coreOf slot) tx
    match got.reply, ((thr s slot).map fun t => inFlush t tx).getD false with
    | .refused rk who, true =>
      let pc := ((thr s slot).map Thread.pc).getD 0
      .next (pendTrap (complete s slot []) slot 0x16 (refusedVal rk who) pc)
    | _, true => .next (complete s slot [])
    | .refused _ _, false => .next s
    | _, false => .next (dropOrphans s (coreOf slot) addr)

/-- STORE_DRAIN: the store buffer head drains into a journal entry and towards its home. (R87, R89, R98) -/
def execStoreDrain (c : Nat) (s : State) : Out := .next (drain s c)

/-- STORE_ACK: a store's acknowledgement or refusal reaches the journal. (R109, R211) -/
def execStoreAck (ends : Hop) (es : List Nat) (code : Nat) (hp : Option Nat) (s : State) : Out :=
  .next (ackStore (dropDomain s fun r => r.agent == .journal ends.dest es) ends.dest es code hp)

/-- L1_FILL_LANDS: a data reply lands at a miss-status entry and serves its loads. (R51, R118) -/
def execL1FillLands (ends : Hop) (cid line : Nat) (install : Bool) (data : Carried) (s : State) : Out :=
  .next (l1Fill s ends.dest cid line install data)

/-- INVALIDATION_PROBE: an invalidation probe reaches a core's L1 and is acknowledged. (R45, R51) -/
def execInvalidationProbe (c h cid line : Nat) (s : State) : Out :=
  .next (post (l1Probe s c cid line) (.probeAckAtHome ⟨nodeCore c, h⟩ cid line false))

/-- BASIN_FILL_LANDS: a basin fill lands and writes absent, unprobed words. (R61, R62) -/
def execBasinFillLands (ends : Hop) (clus : Bool) (sline : Nat) (reg : Bool) (data : Carried) (s : State) : Out :=
  .next (basinFill s ends.dest clus sline reg data)

/-- BASIN_INVALIDATION_PROBE: a write's probe is applied to a basin holder's words. (R61, R64) -/
def execBasinInvalidationProbe (c : Nat) (clus : Bool) (sline h cid line mask : Nat) (fromBasin : Bool) (s : State) : Out :=
  let p := basinProbe s c clus sline (BitVec.ofNat 32 mask) fromBasin
  .next (post p.1 (.probeAckAtHome ⟨nodeCore c, h⟩ cid line p.2))

/-- RECALL_PROBE: REG is cleared and clean words are dropped at the holder. (R61, R68) -/
def execRecallProbe (c : Nat) (clus : Bool) (sline h cid line : Nat) (s : State) : Out :=
  .next (post (basinRecall s c clus sline) (.probeAckAtHome ⟨nodeCore c, h⟩ cid line false))

/-! ### Write-backs (R65, R66) -/

/-- R66, R353: a thread with a refused write-back of a basin pending, once for each basin. -/
def withBasinTrap (bn : Nat) (t : Thread) : Thread :=
  if t.pend.any fun a => a.cause == 0x17 && a.tval == word bn then t
  else { t with pend := t.pend ++ [{ cause := 0x17, tval := word bn, tadr := 0, store := false }] }

/-- R73: a wait with a basin among those whose write-back was refused. -/
def withRefused (bn : Nat) (t : Thread) : Thread :=
  match waitOf t with
  | some (.basin d b bad tag) => setWait t (.basin d b (if bad.testBit bn then bad else bad + 2 ^ bn) tag)
  | _ => t

/-- R66: a refused write-back of a basin is told to the thread whose wait has its tag, resident or saved; for a write-back
of a retirement, the flotilla notes it (R77, R345). -/
def tellRefused (s : State) (c bn : Nat) (owner : Option Nat) : State :=
  match owner with
  | some tag =>
    let tell := fun (t : Thread) => if waitsFor tag t then withRefused bn (withBasinTrap bn t) else t
    let here := fun (p : Nat × Thread) => if coreOf p.1 == c then (p.1, tell p.2) else p
    let away := fun (x : Saved) => if x.core == c then { x with thread := tell x.thread } else x
    let s := { s with threads := s.threads.map here, saved := s.saved.map away }
    match waiterOf s c tag with
    | some slot => post s (.asyncTrapDelivery slot)
    | none => s
  | none =>
    let f := (cluster s (clusterOf c)).flotilla
    match find s.flotillas f with
    | some x => { s with flotillas := put s.flotillas f { x with sf := true } }
    | none => s

/-- R65, R73: the waits for a tag's write-backs end once none of them is in flight. -/
def endBasinWaits (s : State) (c : Nat) (owner : Option Nat) : State :=
  if (core s c).wbs.any fun w => w.owner == owner then s
  else completeWaits s fun k _ w => match w with
    | .basin d none bad tag => if k == c && owner == some tag then some (d.toList.map fun r => (r.toNat, word bad)) else none
    | _ => none

/-- WRITE_BACK_MESSAGE: a basin write-back is performed at its home as one write. (R65) -/
def execWriteBackMessage (h : Nat) (r : Access) (s : State) : Out := .next (atHome s h r)

/-- WRITE_BACK_ACK: SENT words become CLEAN or ABSENT, or DIRTY again at a refusal; the waits that this ends go on, and a
dropped basin may be free; one that no thread waits for is owed to none (R65, R66, R70, R115).
(DESIGN CHOICE, log entry 51) -/
def execWriteBackAck (ends : Hop) (tx bn : Nat) (clus : Bool) (sline : Nat) (reg : Bool) (marks : WbMarks) (refused : Bool)
    (s : State) : Out :=
  let c := ends.dest
  let owner := ((core s c).wbs.find? fun w => w.tx == tx).bind WbFlight.owner
  let s := basinAck s c tx bn clus sline reg marks.cf refused
  let s := match marks.hp, owner with
    | true, some tag => oweWaiter s c tag tx
    | _, _ => s
  let s := if refused then tellRefused s c bn owner else s
  .next (freeDropped (endBasinWaits s c owner) c bn)

/-! ### At a home and at memory -/

/-- REQUEST_AT_HOME: an access is served at its home slice. (R39, R110) -/
def execRequestAtHome (h : Nat) (r : Access) (s : State) : Out := .next (atHome s h r)

/-- MEMORY_REPLY_AT_HOME: a fill from memory lands, or memory accepts an uncached write. (R39) -/
def execMemoryReplyAtHome (h cid line : Nat) (s : State) : Out :=
  match lineAt s h cid line with
  | none => .next s
  | some x =>
    if x.filling then
      let x' := { x with data := some (msPeek s cid line), filling := false, lost := [] }
      .next (settleLine (useWay (modLine s h cid line fun _ => x') h x') h cid line)
    else if x.memWait then .next (settleLine (modLine s h cid line fun l => { l with memWait := false }) h cid line)
    else .next s

/-- PROBE_ACK_AT_HOME: a probe acknowledgement reaches the home, possibly completing the write. (R45, R110) -/
def execProbeAckAtHome (ends : Hop) (cid line : Nat) (dirtyHit : Bool) (s : State) : Out :=
  let got := fun (l : HomeLine) => { l with acks := l.acks - 1, dirtyHit := l.dirtyHit || dirtyHit }
  .next (settleLine (modLine s ends.dest cid line got) ends.dest cid line)

/-- R53: the counter of row j that a page takes. -/
def sketchIndex (j p : Nat) : Nat :=
  let m := match j with
    | 0 => 0x9E3779B1
    | 1 => 0x85EBCA77
    | 2 => 0xC2B2AE3D
    | _ => 0x27D4EB2F
  p * m % 2 ^ 32 / 2 ^ 21

/-- A controller's sketch and list. The spec gives no first SEQ: the controller keeps the SEQ that it wrote last, 0 before
any, so that its first record has SEQ 2. (DESIGN CHOICE, log entry 32) -/
def hotCtrl (s : State) (c : Nat) : HotCtrl :=
  (find s.pkg.ctrls c).getD { rows := [], cands := [], seq := 0, out := [], phase := 0 }

/-- R53: the sketch with a page counted. -/
def countPage (rows : NMap Nat) (p : Nat) : NMap Nat :=
  (List.range 4).foldl (fun m j =>
    let k := 2048 * j + sketchIndex j p
    put m k (Nat.min 0xFFFF ((find m k).getD 0 + 1))) rows

/-- R53: the estimate of a page. -/
def estimate (rows : NMap Nat) (p : Nat) : Nat :=
  (List.range 4).foldl (fun m j => Nat.min m ((find rows (2048 * j + sketchIndex j p)).getD 0)) 0xFFFF

/-- R54: the candidate that gives way: the smallest estimate, and of those the highest page. -/
def weakest : List (Nat × Nat × Nat) → Option (Nat × Nat × Nat)
  | [] => none
  | x :: xs => match weakest xs with
    | none => some x
    | some y => if y.2.1 < x.2.1 ∨ (y.2.1 = x.2.1 ∧ x.1 < y.1) then some y else some x

/-- R54: the candidate list after a page is counted. -/
def candidates (cs : List (Nat × Nat × Nat)) (p e cid : Nat) : List (Nat × Nat × Nat) :=
  if cs.any fun x => x.1 == p then cs.map fun x => if x.1 == p then (p, e, cid) else x
  else if cs.length < 32 then cs ++ [(p, e, cid)]
  else match weakest cs with
    | some w => if w.2.1 < e then cs.map fun x => if x == w then (p, e, cid) else x else cs
    | none => cs

/-- MEMORY_CONTROLLER_REQUEST: a request from a home is counted at its controller. (R53, R54) -/
def execMemoryControllerRequest (ctrl page cid : Nat) (s : State) : Out :=
  if bitOf s.pkg.hotCtl 31 then
    let h := hotCtrl s ctrl
    let rows := countPage h.rows page
    let h := { h with rows := rows, cands := candidates h.cands page (estimate rows page) cid }
    .next (modPkg s fun p => { p with ctrls := put p.ctrls ctrl h })
  else .next s

/-- Bytes of one line written into a home's copy, and probed from the copies below it, which the directory records no more
(R44). -/
def patchHome (cells : List (Nat × Byte)) (s : State) (c : Nat × HomeLine) : State :=
  let x := c.2
  let bis : List BackInv := ([0, 1].filter fun k => halfState x k == 1 && cells.any fun b => b.1 % 128 / 64 == k).map fun k =>
    { half := k, inv := true, blocking := false, done := none }
  let s := modLine s c.1 x.cid x.line fun l => { l with
    data := l.data.map (fun d => mergeCells d cells), bi := l.bi ++ bis, mode := 0, ptrs := [], clus := [] }
  let s := modSlice s c.1 fun y => { y with vecs := y.vecs.filter fun v => !(v.1 == x.cid && v.2 == x.line) }
  let s := (recordedCores x).foldl (fun s k => l1Probe s k x.cid x.line) s
  (holdersOf s c.1 x.cid x.line).foldl (fun s o => (basinProbe s o.core o.clus o.sline (cellMask cells) false).1) s

/-- Bytes of one line written by physical address: in memory, in its memory-side cache and in every copy that a home
holds. -/
def physWrite (s : State) (pa : Nat) (bs : List Byte) : State :=
  let line := pa / 128
  let cells := cellsAt pa bs
  let s := (poisonCells s (granule pa) line cells).1
  let patch := fun (y : MsLine) => if y.line == line then { y with data := mergeCells y.data cells } else y
  let s := match channelOf line with
    | some ch => setMside s ch ((mside s ch).map patch)
    | none => s
  (homeCopies s line).foldl (patchHome cells) { s with mem := writeCells s.mem cells }

/-- The pieces of some bytes, cut at line boundaries. -/
def lineBlocks : Nat → Nat → List Byte → List (Nat × List Byte)
  | 0, _, _ => []
  | n + 1, a, bs => if bs.isEmpty then []
    else (a, bs.take (128 - a % 128)) :: lineBlocks n (a + (128 - a % 128)) (bs.drop (128 - a % 128))

/-- Doublewords written by physical address, line by line. -/
def physWords (s : State) (pa : Nat) (ws : List Word) : State :=
  (lineBlocks (ws.length / 16 + 2) pa (ws.flatMap fun w => leBytes 8 w.toNat)).foldl (fun s p => physWrite s p.1 p.2) s

/-- R55: an entry before another: by decreasing estimate, then by increasing page. -/
def hotterFirst (x : Nat × Nat × Nat) : Nat := (0xFFFF - x.2.1) * 2 ^ 30 + x.1

/-- R55: the 32 entries of a controller's record. -/
def hotEntries (h : HotCtrl) : List Word :=
  let cs := (sortBy hotterFirst h.cands).map fun x =>
    let tier := if 2 ^ 27 ≤ x.1 then 1 else 0
    word (2 ^ 63 + tier * 2 ^ 62 + x.2.2 * 2 ^ 50 + x.2.1 * 2 ^ 34 + x.1)
  cs ++ List.replicate (32 - cs.length) 0

/-- R55: the header of a record of some entries. -/
def hotHeader (out : List Word) (seq : Nat) : Word := word ((out.filter fun w => bitOf w 63).length * 2 ^ 32 + seq)

/-- Where a controller's record stands; 0 where MG.HOTBASE names no area (R55, R56). -/
def hotPlace (s : State) (ctrl : Nat) : Nat :=
  let base := fld s.pkg.hotBase 45 12 * 2 ^ 12
  if base = 0 then 0 else base + 512 * ctrl

/-- The copies of its record's lines that homes hold: the record is written once none of them is busy (R110, R119). -/
def hotVisits (s : State) (ctrl : Nat) : List Visit :=
  let l := hotPlace s ctrl / 128
  if l = 0 then []
  else ([l, l + 1, l + 2].flatMap (homeCopies s)).map fun c =>
    { h := c.1, cid := c.2.cid, pa := c.2.line * 128, n := 128, op := .write, uncached := false, got := Got.none }

/-- R53, R55: a controller's next interval: sketch and list are clear, and its SEQ is even.
(DESIGN CHOICE, log entry 32) -/
def nextInterval (s : State) (ctrl : Nat) : State :=
  let h : HotCtrl := { rows := [], cands := [], seq := ((hotCtrl s ctrl).seq + 1) / 2 * 2 % 2 ^ 32, out := [], phase := 0 }
  let s := { s with due := s.due.filter fun e => e != .hotnessIntervalEnd ctrl }
  postTimer (modPkg s fun p => { p with ctrls := put p.ctrls ctrl h }) (.hotnessIntervalEnd ctrl)

/-- R55: one of the three writes of a record: the header with an odd SEQ, the entries, the header with the next even SEQ.
(DESIGN CHOICE, log entry 32) -/
def publish (s : State) (ctrl : Nat) : State :=
  let h := hotCtrl s ctrl
  let at_ := hotPlace s ctrl
  let seq := (h.seq + 1) % 2 ^ 32
  let keep := fun (s : State) (h : HotCtrl) =>
    post (modPkg s fun p => { p with ctrls := put p.ctrls ctrl h }) (.hotnessIntervalEnd ctrl)
  match h.phase with
  | 0 =>
    let out := hotEntries h
    keep (physWords s at_ [hotHeader out seq]) { h with seq := seq, out := out, phase := 1 }
  | 1 => keep (physWords s (at_ + 8) h.out) { h with phase := 2 }
  | _ => nextInterval (physWords s at_ [hotHeader h.out seq]) ctrl

/-- HOTNESS_INTERVAL_END: the controller publishes its list, unless MG.HOTBASE names no area, and clears its sketch and
list; the event comes about again for the record's next write. (R55, R56) (DESIGN CHOICE, log entry 32) -/
def execHotnessIntervalEnd (ctrl : Nat) (s : State) : Out :=
  let s := dropTimer s (.hotnessIntervalEnd ctrl)
  if (hotCtrl s ctrl).phase = 0 ∧ bitOf s.pkg.hotCtl 31 = false then .next s
  else if hotPlace s ctrl = 0 then .next (nextInterval s ctrl)
  else .next (visit s (hotVisits s ctrl) (.hotnessIntervalEnd ctrl) fun s => publish s ctrl)

/-! ### Chip-scratchpad, remote and domain accesses -/

/-- CHIP_SCRATCHPAD_ACCESS: an access performed at the slice that holds its byte. (R35) -/
def execChipScratchpadAccess (r : Access) (s : State) : Out := .next (chipArrives s r)

/-- REMOTE_ACCESS_ARRIVAL: a REMC access is checked and performed or refused at its target cluster. (R26) -/
def execRemoteAccessArrival (r : Access) (s : State) : Out := .next (remoteArrives s r)

/-- R388: the local partition that an import entry pairs with another device's CID. -/
def importFor (s : State) (dev scid : Nat) : Option Nat :=
  (((find s.pkg.imports dev).getD []).find? fun p => p.1 == scid).map Prod.snd

/-- The table lines that the translation of another device's access reads (R110, R369). -/
def domVisits (s : State) (dev scid : Nat) (r : Access) : List Visit :=
  match importFor s dev scid with
  | some cid => tableVisits (walkVa s 0 cid r.addr).1
  | none => []

/-- Whether an access of the same core of the same device has come before and waits for its translation: a later one comes
behind it (R111). -/
def domBefore (s : State) (dev : Nat) (r : Access) : Bool :=
  s.due.any fun e => match e with
    | .domAccessArrival d _ q => d == dev && q.core == r.core
    | _ => false

/-- DOM_ACCESS_ARRIVAL: another device's access is translated and performed at its home; its answer leaves the
package. (R27, R116, R388) (DESIGN CHOICE, log entry 16) -/
def execDomAccessArrival (dev scid : Nat) (r : Access) (s : State) : Out :=
  match importFor s dev scid with
  | none => .next s
  | some cid => match walkVa s 0 cid r.addr with
    | (got, .error _) => .next (whenFree s (tableVisits got) (.domAccessArrival dev scid r) fun s => noteWalk s 0 got)
    | (got, .ok e) =>
      .next (whenFree s (tableVisits got) (.domAccessArrival dev scid r) fun s =>
      let s := noteWalk s 0 got
      let r := { r with agent := .device dev, cid := cid, handle := none, m := false }
      if permits s e r then
        let r := translated e r
        post s (.requestAtHome (homeSlice r.home r.phys) r)
      else s)

/-- DOMAIN_TIMEOUT: a DOM access with no answer within the domain timeout is refused. (R116, R210)
(DESIGN CHOICE, log entry 16) -/
def execDomainTimeout (r : Access) (s : State) : Out :=
  let s := modPkg (dropTimer s (.domainTimeout r)) fun p => { p with lostTx := p.lostTx.filter fun t => t != r.tx }
  .next (refuse s (nodeCore r.core) r 1 r.tgt 5)

/-! ### Tows (R138 to R145) -/

/-- The physical line of a journalled store: as its translation has told it, or as the tables stand while that is awaited. -/
def lineOfEntry (s : State) (c : Nat) (j : JEntry) : Option Nat :=
  match j.line with
  | some l => some l
  | none =>
    if j.kind != .glob then none
    else match walkVa s (dieOf c) (cidOf s c) j.addr with
      | (_, .ok e) => some ((e.pa + j.addr % e.size) / 128)
      | (_, .error _) => none

/-- R140: whether a core has drained a store to a line that is not acknowledged. -/
def storeInFlight (s : State) (c line : Nat) : Bool := (core s c).journal.any fun j => unackedEntry j.2 && lineOfEntry s c j.2 == some line

/-- TOW_ARRIVES_L1: a tow is installed in or dropped by a consumer's L1, and acknowledged. (R140) -/
def execTowArrivesL1 (c h cid line hd : Nat) (data : List Byte) (s : State) : Out :=
  let drop := ((core s c).mshr.any fun m => m.cid == cid && m.line == line) || storeInFlight s c line
  let s := if drop then post s (.towUseReport ⟨nodeCore c, h⟩ hd false)
    else l1Install s c { line := line, cid := cid, data := data, tow := some (hd, h) }
  .next (post s (.towAck ⟨nodeCore c, h⟩ cid line))

/-- R141, R146: a tow applied to the words of a basin line, unless the line has been recalled since. -/
def towBasin (s : State) (c : Nat) (clus : Bool) (sline h hd : Nat) (data : List Byte) : State × Bool :=
  match find (core s c).tags (tagKey clus sline) with
  | none => (s, false)
  | some t =>
    let take := (if t.fp then t.v else BitVec.allOnes 32) &&& ~~~ t.dm
    let a := slinePlace c clus sline
    let cells := ((List.range 128).filter fun i => take.getLsbD (i / 4)).map fun i => (a + i, data.getD i 0)
    if take = 0 || !t.reg then (s, false)
    else (setTag (writeWords s cells) c clus sline { t with v := t.v ||| take, ill := t.ill &&& ~~~ take, tow := some (hd, h) }, true)

/-- TOW_ARRIVES_BASIN: a tow is applied word by word to a consumer's basin, and acknowledged. (R141) -/
def execTowArrivesBasin (c h cid line hd : Nat) (data : List Byte) (s : State) : Out :=
  let p := match (holdersOf s h cid line).find? fun o => o.core == c with
    | some o => towBasin s c o.clus o.sline h hd data
    | none => (s, false)
  let s := if p.2 then p.1 else post p.1 (.towUseReport ⟨nodeCore c, h⟩ hd false)
  .next (post s (.towAck ⟨nodeCore c, h⟩ cid line))

/-- TOW_ACK: a tow acknowledgement reaches the home, reopening writes to the line. (R139) -/
def execTowAck (ends : Hop) (cid line : Nat) (s : State) : Out :=
  .next (settleLine (modLine s ends.dest cid line fun l => { l with towing := l.towing - 1 }) ends.dest cid line)

/-- TOW_USE_REPORT: a consumer's use-or-waste report is counted in the slice's open replaying step; in FALLBACK both counts
stay 0, and in RECORDING nothing is latched. (R142, R143) -/
def execTowUseReport (ends : Hop) (hd : Nat) (used : Bool) (s : State) : Out :=
  .next (if sliceStep s ends.dest hd = .replaying ∨ sliceStep s ends.dest hd = .deciding then
      countTow s ends.dest hd (if used then (1, 0, 0) else (0, 1, 0))
    else s)

/-- R143, R145: a step boundary once every slice has reported: counters latched, departure, the next state.
(DEDUCED, log entry 19) -/
def closeStep (t : Tow) : Tow :=
  let t := { t with step := (t.step + 1) % 2 ^ 32 }
  let latched := { t with last := t.sum, cum := addCounts t.cum t.sum }
  match t.st with
  | .idle => t
  | .recording => if t.rp then { t with st := .armed, rp := false } else { t with rp := true }
  | .fallback => latched
  | _ => if t.thr < t.sum.2.1 + t.sum.2.2 then { latched with st := .fallback, dep := true } else { latched with st := .replaying }

/-- R144: the step that a boundary opens at a slice; after a replaying step it stays open to decision whether the towline
departs, until every slice has reported. -/
def SliceStep.next : SliceStep → SliceStep
  | .closed => .recording
  | .recording => .replaying
  | .replaying => .deciding
  | .deciding => .deciding
  | .fallback => .fallback

/-- R143, R144: a slice's boundary: what it keeps of a towline's step is cleared, and its next step is open.
(DEDUCED, log entry 19) -/
def clearStep (s : State) (h hd : Nat) : State :=
  let open_ := (sliceStep s h hd).next
  modSlice s h fun x => { x with
    counts := del x.counts hd
    writes := x.writes.filter fun w => w.handle != hd
    tows := x.tows.map fun w => if w.handle == hd then { w with count := 0, ts := false, sent := false, filled := false } else w
    steps := put x.steps hd open_ }

/-- R143, R145: whether a towline departs is told to a slice that has waited for it: in FALLBACK it sends no tow, and USED
and WASTED stay 0; else the tows that have become due leave. (DEDUCED, log entry 19) -/
def decideStep (s : State) (h hd : Nat) (departs : Bool) : State :=
  if sliceStep s h hd != .deciding then s
  else
    let due := (slice s h).dueTows.filter fun t => t.2.2.1 == hd
    let s := modSlice s h fun x => { x with
      dueTows := x.dueTows.filter fun t => t.2.2.1 != hd
      steps := put x.steps hd (if departs then .fallback else .replaying)
      counts := if departs then put x.counts hd (0, 0, ((find x.counts hd).getD (0, 0, 0)).2.2) else x.counts }
    if departs then s else due.foldl (fun s t => towWhenIdle s h t.1 t.2.1 hd t.2.2.2.1 t.2.2.2.2) s

/-- The threads that wait in TWSTEP for a towline complete (R150). -/
def towWaitDone (s : State) (hd : Nat) : State :=
  completeWaits s fun _ _ w => match w with
    | .towline d h _ => if h = hd then some [(d.toNat, word hd)] else none
    | _ => none

/-- STEP_MESSAGE: TWSTEP's step message reaches a slice and closes its step; with the last slice's counts the
boundary takes effect and TWSTEP completes. (R143 to R145, R150) (DEDUCED, log entry 19) -/
def execStepMessage (h hd : Nat) (_slot : Option Nat) (s : State) : Out :=
  match towDesc s hd with
  | none => .next s
  | some t =>
    let got := (find (slice s h).counts hd).getD (0, 0, 0)
    let s := clearStep s h hd
    let t := { t with sum := addCounts t.sum got, pending := t.pending - 1 }
    if t.pending = 0 then
      let t' := closeStep t
      let s := setTow s hd t'
      .next (towWaitDone (forEach (s.slices.map Prod.fst) (fun s h => decideStep s h hd (t'.st == .fallback)) s) hd)
    else .next (setTow s hd t)

/-! ### Walks (R372 to R374) -/

/-- R155: the instructions of the threads that have parked keep the values that they had popped. -/
def keepParked (s : State) : State :=
  (s.threads.filter fun p => p.2.status == .parked && !p.2.pops.isEmpty).foldl (fun s p => keepPops s p.1) s

/-- R208, R209, R372, R373: an access of a walk that has ended on a fault parks, if it is of the walk's page and no store
before it is held there; else it is at the port again. -/
def faultAccess (f : WalkFault) (page : Nat) (s : State) (r : Access) : State :=
  let cl := cluster s (clusterOf r.core)
  if pageOf r = page ∧ (cl.faulted.any (samePage r) || cl.held.any (samePage r)) = false then parkAccess s (f.forVa r.addr) r
  else atPort s r

/-- The walk of a port that is in flight for a page. -/
def walkAt (s : State) (k cid page : Nat) : Option Walk := (cluster s k).walks.find? fun w => w.cid == cid && w.page == page

/-- The address of a page that a walk was begun for. (R372) -/
def walkVaOf (w : Walk) (page : Nat) : Nat :=
  ((w.waiting.find? fun r => pageOf r == page).map Access.addr).getD (page * 2 ^ 16)

/-- The lines of the tables that a walk reads now (R110, R119, R369). -/
def walkVisits (s : State) (k cid page : Nat) : List Visit :=
  match walkAt s k cid page with
  | some w => if w.stale then [] else tableVisits (walkVa s (dieOfCluster k) cid (walkVaOf w page)).1
  | none => []

/-- A walk that is over takes its waiting accesses back to the port, with the translation or on its fault; a stale one
starts again (R372 to R374). -/
def endWalk (k cid page : Nat) (s : State) : State :=
  match walkAt s k cid page with
  | none => s
  | some w =>
    if w.stale then
      let fresh := fun (y : Walk) => if y == w then { y with stale := false } else y
      post (modCluster s k fun x => { x with walks := x.walks.map fresh }) (.walkComplete k cid page)
    else
      let s := modCluster s k fun x => { x with walks := x.walks.erase w }
      match walkVa s (dieOfCluster k) cid (walkVaOf w page) with
      | (got, .ok e) => retryQueued (w.waiting.foldl atPort (installWalk s k got e)) k
      | (got, .error f) =>
        retryQueued (keepParked (w.waiting.foldl (faultAccess f page) (noteWalk s (dieOfCluster k) got))) k

/-- WALK_COMPLETE: a walk ends, installing a translation or parking its accesses, once the lines of its tables are free; a
stale one starts again. (R370, R372, R374) -/
def execWalkComplete (k cid page : Nat) (s : State) : Out :=
  .next (whenFree s (walkVisits s k cid page) (.walkComplete k cid page) (endWalk k cid page))

end Sys2Proof.Machine
end

