-- ==== Sys2Proof/Machine/HostLinks.lean ====
section
/-! DEFINITION. The host at its links (spec/07_order_wide.md R115 to R119, spec/27_host_links.md R378 to R380): requests
for half-lines, back-invalidation responses, the BAR window, and the doorbell page. -/

namespace Sys2Proof.Machine

/-! ### Half-lines (R117, R119) -/

/-- Whether a line lies in an HDM range that firmware has assigned to link 1 (R379). -/
def inHdm1 (s : State) (line : Nat) : Bool := s.pkg.hdm1.any fun r => decide (r.1 ≤ line * 128) && decide (line * 128 + 128 ≤ r.1 + r.2)

/-- Whether the host reaches a line by CXL.mem: over link 0 trained in CXL mode, or over link 1, which exposes the HDM ranges
assigned to it (R117, R378, R379). -/
def cxlUp (s : State) (line : Nat) : Bool := s.pkg.link0 == .cxl || (s.pkg.link1 == .cxl && inHdm1 s line)

/-- The final translation of a physical line, where some cluster port holds one. (DESIGN CHOICE, log entry 15) -/
def pageOfLine (s : State) (cid pa : Nat) : Option TlbEntry :=
  s.clusters.findSome? fun k => k.2.tlb.find? fun e =>
    (if e.common then cid == 0 else e.cid == cid) && decide (e.pa ≤ pa) && decide (pa < e.pa + e.size)

/-- R28, R117: whether the host's copies of a line are tracked. (DESIGN CHOICE, log entry 15) -/
def hostTracked (s : State) (cid line : Nat) : Bool := ((pageOfLine s cid (line * 128)).map TlbEntry.tracked).getD true

/-- An access that the host makes. -/
def hostAccess (s : State) (cid pa : Nat) (home : Option Nat) (op : MemOp) : Access :=
  { tx := s.nextTx, agent := .host, core := 0, cid := cid, kind := .glob, tgt := 0, addr := pa, op := op, scope := .th,
    xlated := true, phys := pa, home := home, cache := 2, common := cid == 0, tracked := false, handle := none }

/-- A host request for a half, tracked or served as an uncached access (R117, R119). A page that no TLB entry covers counts as
cached. (DESIGN CHOICE, log entry 15) -/
def hostRequest (s : State) (h cid line half : Nat) (req : HostReq) (plain : Option MemOp) : State :=
  if !cxlUp s line then s
  else
    let pa := line * 128 + 64 * half
    if hostTracked s cid line then
      -- the line of an uncached page stays in the L2 only while the host holds a half of it (R28)
      let cache := if ((pageOfLine s cid pa).map TlbEntry.cache) == some 2 then 2 else 0
      atHome (tick s) h { hostAccess s cid pa none (.host half req) with cache := cache, tracked := true }
    else match plain with
      | some op => atHome (tick s) h (hostAccess s cid pa none op)
      | none => s

/-- HOST_MEMRD_SHARED: the host reads a half shared. (R119) -/
def execHostMemrdShared (h cid line half : Nat) (s : State) : Out :=
  .next (hostRequest s h cid line half .rdShared (some (.read 64)))

/-- HOST_MEMRD_OWN: the host reads a half for ownership. (R118, R119) -/
def execHostMemrdOwn (h cid line half : Nat) (s : State) : Out :=
  .next (hostRequest s h cid line half .rdOwn (some (.read 64)))

/-- R119: whether a MemWr brings the modified bytes of a half that is being back-invalidated. -/
def mergesInto (x : HomeLine) (half : Nat) : Bool :=
  x.data.isSome && halfState x half == 2 && x.bi.any fun b => b.half == half && b.blocking

/-- HOST_MEMWR: the host writes a 64-byte half: merged while the half is being back-invalidated, else performed as a
write; the hotness area takes no write of the host (R55). (R119) -/
def execHostMemwr (h cid line half : Nat) (data : List Byte) (meta_ : Nat) (s : State) : Out :=
  let cells := cellsAt (line * 128 + half * 64) (data.take 64)
  match lineAt s h cid line with
  | some x =>
    if inHotArea s (line * 128) then .next s
    else if cxlUp s line && mergesInto x half then
      let s := (poisonCells s 4 line cells).1
      .next (modLine s h cid line fun l => { l with data := l.data.map fun d => mergeCells d cells, dirty := true })
    else .next (hostRequest s h cid line half (.wr data meta_) (some (.write cells)))
  | none =>
    .next (if inHotArea s (line * 128) then s else hostRequest s h cid line half (.wr data meta_) (some (.write cells)))

/-- HOST_MEMINV: the host drops a shared half. (R119) -/
def execHostMeminv (h cid line half : Nat) (s : State) : Out :=
  match lineAt s h cid line with
  | some _ => .next (hostRequest s h cid line half .inv none)
  | none => .next s

/-- HOST_MEMSPECRD: a speculative read is a hint, and is dropped. (R117) -/
def execHostMemspecrd (_h _cid _line _half : Nat) (s : State) : Out := .next s

/-- A list without its first back-invalidation of a half. -/
def dropBi (half : Nat) : List BackInv → List BackInv
  | [] => []
  | b :: bs => if b.half = half then bs else b :: dropBi half bs

/-- BACK_INVALIDATION_RESPONSE: a BIRspI or BIRspS completes a back-invalidation; whoever waits for host-done hears of
it. A half asked for its data alone is shared then, as the table says; a BIRspS that answers a BISnpInv, of which the table
says nothing, counts as an invalidation. (R115, R119) (DESIGN CHOICE, log entry 46) -/
def execBackInvalidationResponse (h cid line half : Nat) (_shared : Bool) (s : State) : Out :=
  match lineAt s h cid line with
  | none => .next s
  | some x =>
    match x.bi.find? fun b => b.half == half with
    | none => .next s
    | some b =>
      let s := modLine s h cid line fun l => setHalf { l with bi := dropBi half l.bi } half (if b.inv then 0 else 1)
      let s := match b.done with
        | some (who, tx) => hostDoneDue s h cid line who tx
        | none => s
      .next (settleLine s h cid line)

/-! ### The BAR window (R378, R379) -/

/-- The pieces of a host access by line: each an access at a physical address. -/
def barPieces (pa : Nat) : MemOp → List (Nat × MemOp)
  | .read n => (pieces128 (n / 128 + 2) pa n).map fun p => (p.1, .read p.2)
  | .write cells =>
    let cs := cells.map fun c => (pa + c.1, c.2)
    ((cs.map fun c => c.1 / 128).eraseDups).map fun l =>
      let mine := cs.filter fun c => c.1 / 128 == l
      ((mine.map Prod.fst).foldl Nat.min (l * 128 + 127), .write mine)
  | _ => []
where
  /-- A range cut at line boundaries. -/
  pieces128 : Nat → Nat → Nat → List (Nat × Nat)
    | 0, _, _ => []
    | k + 1, a, n => if n = 0 then [] else
        let m := Nat.min n (128 - a % 128)
        (a, m) :: pieces128 k (a + m) (n - m)

/-- The last byte that a window access reaches, plus one; cells of a write are offsets from its address. -/
def barEnd (addr : Nat) : MemOp → Nat
  | .read n => addr + n
  | .write cells => cells.foldl (fun m c => Nat.max m (addr + c.1 + 1)) addr
  | _ => addr

/-- The homing of a physical line: that of its page, where a port or a home knows it (R29).
(DESIGN CHOICE, log entry 15) -/
def homeFor (s : State) (cid pa : Nat) : Option Nat :=
  match pageOfLine s cid pa with
  | some e => e.home
  | none => none

/-- BAR_WINDOW_ACCESS: a host read or write through a VF's BAR2 window in PCI Express mode, served at the home as an
uncached access to an untracked page. (R30, R378, R379) -/
def execBarWindowAccess (vf addr : Nat) (op : MemOp) (s : State) : Out :=
  match find s.pkg.vfs vf with
  | none => .next s
  | some v => match part s v.part with
    | none => .next s
    | some p =>
      if s.pkg.link0 = .pcie ∧ barEnd addr op ≤ p.hsize * 2 ^ 16 then
        let go := fun (s : State) (q : Nat × MemOp) =>
          let home := homeFor s v.part q.1
          post (tick s) (.requestAtHome (homeSlice home q.1) (hostAccess s v.part q.1 home q.2))
        let may := fun (q : Nat × MemOp) => !opWrites q.2 || !inHotArea s q.1
        .next (((barPieces (p.hbase * 2 ^ 16 + addr) op).filter may).foldl go s)
      else .next s

/-! ### The doorbell page and the host ring (R340, R341, R379, R380) -/

/-- A virtual function as it stands before anything is bound to it. -/
def Vf.unbound : Vf := { part := 0, tail := 0, rerr := false, halt := false, haltRec := 0, window := [], told := 0 }
/-- A virtual function. -/
def vf (s : State) (n : Nat) : Vf := (find s.pkg.vfs n).getD Vf.unbound
/-- A virtual function changed. -/
def modVf (s : State) (n : Nat) (f : Vf → Vf) : State := modPkg s fun p => { p with vfs := put p.vfs n (f (vf s n)) }

/-- DOORBELL_TAIL: a host write of TAIL admits new ring slots or sets RERR; a halted partition drops it. (R380)
(DEDUCED, log entry 33) -/
def execDoorbellTail (n : Nat) (tail : BitVec 32) (s : State) : Out :=
  let v := vf s n
  match part s v.part with
  | none => .next s
  | some p =>
    if p.halted || !s.pkg.vfEnable then .next s
    else if 2 ^ p.rn < (tail.toNat + 2 ^ 32 - p.head) % 2 ^ 32 then .next (modVf s n fun v => { v with rerr := true })
    else
      let s := modVf s n fun v => { v with tail := tail.toNat }
      .next (postAll (modPart s v.part fun p => { p with tail := tail.toNat }) [.hostRingSlot v.part, .counterPoll v.part])

/-- DOORBELL_RERR_CLEAR: a write of 1 clears RERR. (R379) -/
def execDoorbellRerrClear (n : Nat) (v : Word) (s : State) : Out :=
  if bitOf v 1 then .next (modVf s n fun x => { x with rerr := false }) else .next s

/-- The host descriptor at HEAD, if the ring holds one and it can be read (R340). (DESIGN CHOICE, log entry 21) -/
def ringSlot (s : State) (cid : Nat) (p : Part) : Option (List Word) :=
  if p.halted || p.head = p.tail then none else partWords s cid (p.rbase + 128 + 128 * (p.head % 2 ^ p.rn)) 16

/-- HEAD advanced, in the partition and in the ring's memory. -/
def advanceHead (s : State) (cid : Nat) : State :=
  match part s cid with
  | none => s
  | some p =>
    let h := (p.head + 1) % 2 ^ 32
    let s := modPart s cid fun p => { p with head := h }
    post ((partStore s cid p.rbase (word h)).getD s) (.hostRingSlot cid)

/-- R340, R341: the next host ring slot taken: a bad descriptor gets its status record, another enters its queue if that
has room. -/
def takeRingSlot (s : State) (cid : Nat) : Option State :=
  (part s cid).bind fun p => (ringSlot s cid p).bind fun d =>
    if (descBad d).isSome then
      let rva := fld (d.getD 4 0) 51 0
      let s := if rva = 0 then s else (partStore s cid rva (word 2)).getD s
      some (advanceHead s cid)
    else (enterLaunch s cid d).map fun e => advanceHead e.1 cid

/-- The lines that the scheduler visits to take a slot: the slot and HEAD, then the status record of a bad descriptor. -/
def ringVisits (s : State) (cid : Nat) : List Visit :=
  match part s cid with
  | none => []
  | some p =>
    if p.halted || p.head = p.tail then []
    else
      let vs := visitsTo s cid (p.rbase + 128 + 128 * (p.head % 2 ^ p.rn)) 128 .read ++ visitsTo s cid p.rbase 8 .write
      if notFree s vs then vs
      else match ringSlot s cid p with
        | none => vs
        | some d =>
          let rva := fld (d.getD 4 0) 51 0
          if (descBad d).isSome && rva != 0 then vs ++ visitsTo s cid rva 8 .write else vs

/-- Whether an access is a write that the host has posted through a window of a partition (R380). -/
def postedWrite (cid : Nat) (r : Access) : Bool := r.agent == .host && opWrites r.op && !r.tracked && r.cid == cid

/-- R380: whether a write that the host has posted for a partition is not performed yet: one that stands before the doorbell
comes first, so a slot is taken once none is. -/
def postedOut (s : State) (cid : Nat) : Bool :=
  let ofLine := fun (x : HomeLine) => x.waiting.any (postedWrite cid) || x.current.any (postedWrite cid)
  (s.due.any fun e => match e with
    | .requestAtHome _ r => postedWrite cid r
    | _ => false) ||
    s.slices.any fun h => h.2.lines.any ofLine || h.2.noRoom.any (postedWrite cid)

/-- Whether the scheduler has something to do at a host ring now: to take a slot, or to ask the host for what that needs. -/
def ringReady (s : State) (cid : Nat) : Bool :=
  let vs := ringVisits s cid
  !postedOut s cid && mayVisit s vs && (notFree s vs || (takeRingSlot s cid).isSome)

/-- HOST_RING_SLOT: the scheduler takes a host ring slot into its launch queue. (R340, R341) -/
def execHostRingSlot (cid : Nat) (s : State) : Out :=
  .next (visit s (ringVisits s cid) (.hostRingSlot cid) fun s => (takeRingSlot s cid).getD s)

end Sys2Proof.Machine
end

