-- ==== Sys2Proof/Machine/Matrix.lean ====
section
/-! DEFINITION. The matrix engine (spec/16_matrix.md R251 to R259, R267 to R273, spec/14_numbers.md R231 to R235): weight
tiles, ring steps, held sets, row drains, pre-emption. -/

namespace Sys2Proof.Machine

/-! ### Weights and sums (R231 to R235, R251, R254 to R257) -/

/-- A list cut into n pieces of m. -/
def pieces {α : Type} (m : Nat) : Nat → List α → List (List α)
  | 0, _ => []
  | n + 1, xs => xs.take m :: pieces m n (xs.drop m)

/-- R231: a T2 code's weight. -/
def t2Weight (code : Nat) : Int := if code = 1 then 1 else if code = 3 then -1 else 0
/-- R231: the four weights of a byte, and whether a code is invalid. -/
def t2Byte (b : Byte) : List Int × Bool :=
  let cs := (List.range 4).map fun i => b.toNat / 4 ^ i % 4
  (cs.map t2Weight, cs.contains 2)
/-- R232: the five weights of a byte, and whether it is invalid. -/
def t5Byte (b : Byte) : List Int × Bool :=
  if 243 ≤ b.toNat then (List.replicate 5 0, true)
  else ((List.range 5).map fun k => ((b.toNat / 3 ^ k % 3 : Nat) : Int) - 1, false)
/-- A byte of a weight run by its format: 0 T2, 1 T5, 2 INT8 (R267). -/
def weightByte (wf : Nat) (b : Byte) : List Int × Bool :=
  if wf = 0 then t2Byte b else if wf = 1 then t5Byte b else ([b.toInt], false)
/-- A run of n weights and its format errors. -/
def weightRun (wf n : Nat) (bs : List Byte) : List Int × Bool :=
  let ws := bs.map (weightByte wf)
  ((ws.flatMap Prod.fst).take n, ws.any Prod.snd)

/-- The bytes of a tile's column: a sixty-fourth of TB (R254). -/
def runBytes (wf : Nat) : Nat := if wf = 0 then 32 else if wf = 1 then 26 else 128
/-- The byte of five, four or one zero weights, which a poisoned byte reads as (R279). (DEDUCED, log entry 18) -/
def zeroWeight (wf : Nat) : Byte := if wf = 1 then 121 else 0

/-- An exact integer dot product (R251, R255). -/
def dotOf (xs ys : List Int) : Int := (List.zipWith (· * ·) xs ys).foldl (· + ·) 0

/-- R234: an addition into an INT36 accumulator, clamped; the flag is sticky. -/
def addInt36 (a : Nat × Bool) (d : Int) : Nat × Bool :=
  let v := (BitVec.ofNat 36 a.1).toInt + d
  if 2 ^ 35 ≤ v then (2 ^ 35 - 1, true)
  else if v < -(2 ^ 35) then (2 ^ 35, true)
  else ((BitVec.ofInt 36 v).toNat, a.2)

/-- R235, R256: an addition of a block's product into an E8M27 accumulator, rounded once. -/
def addE8m27 (a : Nat) (d : Int) (scale : Num) : Nat :=
  Flt.e8m27.round .rne ((Flt.e8m27.read a).add .rne ((Num.ofInt d).mul scale))

/-- R255: a cell's blocks added in order in integer mode. -/
def cellInt (acc : Nat) (a w : List (List Int)) : Nat × Bool := (List.zipWith dotOf a w).foldl addInt36 (acc, false)

/-- R256: a cell's blocks added in order in block-scaled mode, by the row's and each block's scale. -/
def cellScaled (acc : Nat) (a w : List (List Int)) (sa : Nat) (sw : List Nat) : Nat :=
  ((List.zipWith dotOf a w).zip sw).foldl
    (fun acc d => addE8m27 acc d.1 ((Flt.bf16.read sa).mul (Flt.bf16.read d.2))) acc

/-! ### Accumulators -/

/-- A sparse list of accumulators written out. -/
def dense : Nat → Nat → NMap Nat → List Nat
  | 0, _, _ => []
  | n + 1, i, [] => 0 :: dense n (i + 1) []
  | n + 1, i, (j, v) :: m => if j = i then v :: dense n (i + 1) m else 0 :: dense n (i + 1) ((j, v) :: m)
/-- The accumulators of a list that are not 0. -/
def sparse (xs : List Nat) : NMap Nat := (xs.zipIdx.filter fun x => x.1 != 0).map fun x => (x.2, x.1)

/-- What a slice needs of one chunk: activations by row, weights by column, in blocks, and the scales. -/
structure Chunk where
  acts : List (List (List Int))
  wts : List (List (List Int))
  sa : List Nat
  sw : List (List Nat)                -- by column
  deriving DecidableEq, Repr

/-- A row of accumulators after a chunk in integer mode. -/
def rowInt (ch : Chunk) (a : List (List Int)) (row : List Nat) : List (Nat × Bool) :=
  (row.zip ch.wts).map fun x => cellInt x.1 a x.2
/-- A row of accumulators after a chunk in block-scaled mode. -/
def rowScaled (ch : Chunk) (a : List (List Int)) (sa : Nat) (row : List Nat) : List (Nat × Bool) :=
  (row.zip (ch.wts.zip ch.sw)).map fun x => (cellScaled x.1 a x.2.1 sa x.2.2, false)

/-- R252, R255, R256: the accumulators of a slice after a chunk, and whether one saturated. -/
def sliceChunk (sc : Bool) (ch : Chunk) (acc : List Nat) : List Nat × Bool :=
  let rows := (pieces 64 64 acc).zip (ch.acts.zip (ch.sa ++ List.replicate 64 0))
  let out := rows.flatMap fun x => if sc then rowScaled ch x.2.1 x.2.2 x.1 else rowInt ch x.2.1 x.1
  (out.map Prod.fst, out.any Prod.snd)

/-! ### Steps (R252 to R254, R268) -/

/-- The number of chunks of a job. -/
def chunkCount (j : Job) : Nat := fld j.c0 28 23
/-- The number of N tiles. -/
def tileCount (j : Job) : Nat := fld j.c0 22 16
/-- The tile of the next step, or the one that is being drained. -/
def tileNow (j : Job) : Nat := if jobOpc j = 5 then 0 else j.step / chunkCount j - (if j.draining then 1 else 0)
/-- Whether a job drains at its end: MT.DRAIN, or D. -/
def drains (j : Job) : Bool := jobOpc j == 5 || bitOf j.c0 9
/-- The core of a member slice. -/
def memberCore (k : Nat) (j : Job) (m : Nat) : Nat := k * 8 + (jobMembers j).headD 0 + m

/-- R252: the chunk that slice m processes in step k of round g. -/
def chunkOf (r g k m : Nat) : Nat := g * r + (m + k) % r

/-- R254: a weight tile of the B operand, as a member fetches it. -/
def fetchTile (k id : Nat) (j : Job) (wf t c m : Nat) : EM (List Byte) := do
  let tb := 64 * runBytes wf
  let x ← engineFetch k id (memberCore k j m) (jobOp j 1) ((jobOp j 1).addr + (t * chunkCount j + c) * tb : Nat) tb
  return cleaned (zeroWeight wf) x

/-- R252: the tiles of a round, each by the slice that fetches it. -/
def fetchTiles (k id : Nat) (j : Job) (wf t g r : Nat) : List Nat → EM (List (List Byte))
  | [] => return []
  | m :: ms => do
    let x ← fetchTile k id j wf t (chunkOf r g 0 m) m
    return x :: (← fetchTiles k id j wf t g r ms)

/-- R253: a chunk of a slice's A band, row by row. -/
def fetchRows (k id c : Nat) (j : Job) (ch : Nat) : List Nat → EM (List (List (List Int)))
  | [] => return []
  | i :: is => do
    let bs ← engineRead k id c (jobOp j 0) ((jobOp j 0).addr + i * fld j.c1 63 48 + 128 * ch : Nat) 128 false
    return pieces 32 4 (bs.map BitVec.toInt) :: (← fetchRows k id c j ch is)

/-- R268: the activation scales of a chunk. -/
def fetchSa (k id c : Nat) (x : MtCtx) (cs ch : Nat) : List Nat → EM (List Nat)
  | [] => return []
  | i :: is => do
    let bs ← engineRead k id c x.as_ (x.as_.addr + (i * cs + ch) * 2 : Nat) 2 true
    return leNat bs :: (← fetchSa k id c x cs ch is)

/-- R268: the weight scales of a chunk's blocks, block by block. -/
def fetchSw (k id c : Nat) (x : MtCtx) (nt t ch : Nat) : List Nat → EM (List (List Nat))
  | [] => return []
  | b :: bs => do
    let ys ← engineRead k id c x.ws (x.ws.addr + ((4 * ch + b) * (64 * nt) + 64 * t) * 2 : Nat) 128 false
    return (pieces 2 64 ys).map leNat :: (← fetchSw k id c x nt t ch bs)

/-- The columns of a list of rows. -/
def columns (rows : List (List Nat)) : List (List Nat) := (List.range 64).map fun n => rows.map fun r => r.getD n 0

/-- What a slice needs of a chunk, read; the flag says whether a weight code is invalid (R233). -/
def fetchChunk (k id c : Nat) (j : Job) (x : MtCtx) (t ch : Nat) (tile : List Byte) : EM (Chunk × Bool) := do
  let runs := (pieces (runBytes x.wf) 64 tile).map (weightRun x.wf 128)
  let acts ← fetchRows k id c j ch (List.range 64)
  let sa ← if x.sc then fetchSa k id c x (chunkCount j) ch (List.range 64) else pure []
  let sw ← if x.sc then fetchSw k id c x (tileCount j) t ch (List.range 4) else pure []
  return ({ acts := acts, wts := runs.map fun r => pieces 32 4 r.1, sa := sa, sw := columns sw }, runs.any Prod.snd)

/-- A core's accumulators changed. -/
def setAcc (s : State) (c : Nat) (acc : NMap Nat) : State := modCore s c fun x => { x with held := { x.held with acc := acc } }

/-- R252: step k of round g of tile t on each member. -/
def stepSlices (k id : Nat) (j : Job) (x : MtCtx) (tiles : List (List Byte)) (t g st r : Nat) : List Nat → EM Unit
  | [] => return ()
  | m :: ms => do
    let c := memberCore k j m
    let (ch, fe) ← fetchChunk k id c j x t (chunkOf r g st m) (tiles.getD ((m + st) % r) [])
    let out := sliceChunk x.sc ch (dense 4096 0 (core (← get) c).held.acc)
    modify fun s => modJob (setAcc s c (sparse out.1)) k id fun j => { j with fe := j.fe || fe, sat := j.sat || out.2 }
    stepSlices k id j x tiles t g st r ms

/-- The members' held sets marked as a job leaves them (R259). -/
def markHeld (s : State) (k : Nat) (j : Job) (hv : Bool) : State :=
  (jobMembers j).foldl (fun s i => modCore s (k * 8 + i) fun x =>
    { x with held := { x.held with hv := hv, ht := if hv then jobTag j else x.held.ht } }) s

/-- R271: a tile's drain begins on every member. -/
def beginDrain (s : State) (k id : Nat) : State :=
  match jobAt s k id with
  | some j =>
    let s := modJob s k id fun j => { j with draining := true, rows := [] }
    postAll s ((jobMembers j).map fun i => .rowDrain k id i)
  | none => s

/-- R252, R257: a ring step of MT.TERN or MT.BOOTH; after a tile's last, its drain, or with D = 0 the held set. -/
def tileStep (k id : Nat) (j : Job) (x : MtCtx) : EM Unit := do
  let r := (jobMembers j).length
  let c := chunkCount j
  let t := j.step / c
  let g := j.step % c / r
  let st := j.step % r
  let tiles ← if st = 0 ∨ j.tiles = [] then fetchTiles k id j x.wf t g r (List.range r) else pure j.tiles
  stepSlices k id j x tiles t g st r (List.range r)
  modify fun s => modJob s k id fun j => { j with step := j.step + 1, tiles := if st + 1 = r then [] else tiles }
  if (j.step + 1) % c = 0 then
    if drains j then modify fun s => beginDrain s k id
    else modify fun s => endJob (markHeld s k j true) k id 0
  else modify fun s => wakeJob s k id

/-- R259, R270: MT.ZERO's one step: every member's held set is zeros. -/
def zeroStep (s : State) (k : Nat) (j : Job) (x : MtCtx) : State :=
  let zero : Held := { hv := true, ht := jobTag j, sc := x.sc, acc := [] }
  (jobMembers j).foldl (fun s i => modCore s (k * 8 + i) fun y => { y with held := zero }) s

/-- What a running matrix job does at its turn. -/
def matrixStep (k id : Nat) (j : Job) : EM Unit :=
  match j.ctx with
  | none => return ()
  | some x =>
    if j.draining then return ()
    else if jobOpc j = 4 then modify fun s => endJob (zeroStep s k j x) k id 0
    else if jobOpc j = 5 then modify fun s => beginDrain s k id
    else tileStep k id j x

/-! ### Pre-emption (R129, R273) -/

/-- Bit fields of w bits packed from the least significant bit of a number. -/
def packBits (w : Nat) (xs : List Nat) : Nat := xs.foldr (fun v n => v + 2 ^ w * n) 0

/-- The bytes of 36-bit fields packed from the least significant bit, two fields in nine bytes. -/
def packFields : List Nat → List Byte
  | [] => []
  | [a] => leBytes 5 (packBits 36 [a])
  | a :: b :: rest => leBytes 9 (packBits 36 [a, b]) ++ packFields rest

/-- The 36-bit fields of packed bytes. -/
def unpackFields (n : Nat) (bs : List Byte) : List Nat :=
  (pieces 9 n bs).flatMap fun p => let v := leNat p; [v % 2 ^ 36, v / 2 ^ 36 % 2 ^ 36]

/-- The save record of a member (R273). -/
def saveRecord (s : State) (k : Nat) (j : Job) (m : Nat) : List Byte :=
  let i := (jobMembers j).headD 0 + m
  let moved := (j.rows.filter fun x => x.1 == i).foldl (fun n x => n + 2 ^ x.2) 0
  leBytes 8 (j.step * 2 ^ 32 + tileNow j % 2 ^ 16 * 2 ^ 16 + j.id) ++ leBytes 8 moved ++ List.replicate 112 0 ++
    packFields (dense 4096 0 (core s (k * 8 + i)).held.acc)

/-- The address of a member's save record. -/
def saveAddr (j : Job) (m : Nat) : Nat := (jobOp j 2).addr + m * 0x4880

/-- A record written line by line. -/
def writeLines (k id c : Nat) (o : Operand) (a : Nat) (bs : List Byte) : List (Nat × Nat) → EM Unit
  | [] => return ()
  | (p, n) :: rest => do
    let cells := cellsAt p ((bs.drop (p - a)).take n)
    engineWrite k id c (p / 128) o (.write cells) p (cells.map Prod.fst)
    writeLines k id c o a bs rest

/-- The members' records written. -/
def saveMembers (k id : Nat) (j : Job) : List Nat → EM Unit
  | [] => return ()
  | m :: ms => do
    let a := saveAddr j m
    let c := k * 8 + j.core
    writeLines k id c (jobOp j 2) a (saveRecord (← get) k j m) (linePieces 160 a 0x4880)
    saveMembers k id j ms

/-- R129, R273: a matrix job's state written to its save area at a step boundary. (DEDUCED, log entry 30) -/
def saveJob (k id : Nat) (j : Job) : EM Unit := do
  saveMembers k id j (List.range (jobMembers j).length)
  modify fun s => wakeJob (modJob s k id fun j => { j with tiles := [], recorded := true }) k id

/-- R129: a matrix job that is pre-empted at a step boundary: it saves its state, and is STOPPED once the saves are
acknowledged. (DEDUCED, log entry 30) -/
def preemptTurn (s : State) (k id : Nat) (j : Job) : State :=
  if !j.recorded then runJob s k id (saveJob k id j)
  else if !j.unacked.isEmpty then s
  else kickEngine (modJob (loseHeld s k j) k id fun j => { j with st := .stopped }) k

/-- The members' records read back: the step, the rows moved, the accumulators. -/
def loadMembers (k id : Nat) (j : Job) (sc : Bool) : List Nat → EM (Nat × List (Nat × Nat))
  | [] => return (0, [])
  | m :: ms => do
    let bs ← engineRead k id (k * 8 + j.core) (jobOp j 2) (saveAddr j m : Nat) 0x4880 false
    let i := (jobMembers j).headD 0 + m
    let c := k * 8 + i
    let moved := leNat ((bs.drop 8).take 8)
    let rows := ((List.range 64).filter moved.testBit).map fun n => (i, n)
    let acc := sparse (unpackFields 2048 (bs.drop 128))
    modify fun s => modCore s c fun x => { x with held := { x.held with hv := false, sc := sc, acc := acc } }
    let rest ← loadMembers k id j sc ms
    return (leNat ((bs.drop 4).take 4), rows ++ rest.2)

/-- R273: a saved matrix job reloads its records and continues from the step recorded. (DEDUCED, log entry 30) -/
def loadJob (k id : Nat) (j : Job) : EM Unit := do
  let got ← loadMembers k id j ((j.ctx.map MtCtx.sc).getD false) (List.range (jobMembers j).length)
  let all := decide (got.2.length = 64 * (jobMembers j).length)
  let drain := drains j && got.1 != 0 && got.1 % chunkCount j == 0 && !all && j.draining
  modify fun s =>
    let s := modJob s k id fun j => { j with
      st := .running, preempted := false, recorded := false, step := got.1, draining := drain, rows := if drain then got.2 else [] }
    postAll (wakeJob s k id) (if drain then (jobMembers j).map fun i => .rowDrain k id i else [])

/-- Whether a pre-empted job may be restored (R273, R361): its flotilla runs, its members hold their slots again and no
other job runs on them. (DEDUCED, log entry 30) -/
def mayResume (s : State) (k : Nat) (j : Job) : Bool :=
  j.parked.isEmpty && j.unacked.isEmpty && !jobHeld s j && membersFree s k j &&
    (jobMembers j).all fun i => (owedSlots s (k * 8 + i)).all fun o => o.2.job != j.id

/-- R270: MT.ZERO and MT.DRAIN are pre-empted as one step, so they are not stopped within it and save nothing.
(DEDUCED, log entry 30) -/
def savesState (j : Job) : Bool := jobOpc j == 2 || jobOpc j == 3

/-- A matrix job's turn: a step, a save, or a restore. -/
def matrixTurn (s : State) (k id : Nat) : State :=
  match jobAt s k id with
  | none => s
  | some j =>
    if j.ended then finishJob s k id
    else match j.st with
      | .running =>
        if j.preempted && savesState j then preemptTurn s k id j else runJob s k id (matrixStep k id j)
      | .stopped =>
        if j.preempted && !j.recorded then runJob s k id (saveJob k id j)
        else if j.preempted && mayResume s k j then runJob s k id (loadJob k id j)
        else s
      | _ => s

/-! ### Starting (R258, R259, R268 to R270) -/

/-- R259: whether every member holds the set that a job without Z needs. -/
def heldMatches (s : State) (k : Nat) (j : Job) (sc : Bool) : Bool :=
  (jobMembers j).all fun i =>
    let h := (core s (k * 8 + i)).held
    h.hv && h.ht == jobTag j && h.sc == sc

/-- The members' slices taken by a starting job: zeroed with Z, and no longer a valid set. -/
def takeSlices (s : State) (k : Nat) (j : Job) (sc zero : Bool) : State :=
  (jobMembers j).foldl (fun s i => modCore s (k * 8 + i) fun x =>
    { x with held := { x.held with hv := false, sc := sc, acc := if zero then [] else x.held.acc } }) s

/-- R269: whether a context suits a command's weight format: `booth` asks for INT8, `tern` for a ternary one. -/
def ctxSuits (opc : Nat) (x : MtCtx) : Bool := if opc = 2 then x.wf != 2 else if opc = 3 then x.wf == 2 else true

/-- R258, R268, R269: a gang job starts: the context is copied and checked, then the held sets. -/
def startGang (s : State) (k : Nat) (j : Job) : State :=
  let ctx := (core s (k * 8 + j.core)).ctx
  let s := gangDone (modJob s k j.id fun j => { j with st := .running, ctx := ctx }) k j.id
  let opc := jobOpc j
  let zero := (opc == 2 || opc == 3) && bitOf j.c0 8
  match ctx with
  | none => endJob s k j.id 5
  | some x =>
    if !ctxSuits opc x then endJob s k j.id 5
    else if opc = 4 then wakeJob s k j.id
    else if !zero && !heldMatches s k j x.sc then endJob s k j.id 3
    else wakeJob (takeSlices s k j x.sc zero) k j.id

/-- A gang job's turn before it starts: taken from the queue, then started once its gang is complete (R258).
(DEDUCED, log entry 28) -/
def gangTurn (s : State) (k id : Nat) : State :=
  match jobAt s k id with
  | none => s
  | some j =>
    if j.ended then finishJob s k id
    else if j.st = .queued then
      if (nextTaken s k true).map Job.id == some id then wakeJob (take s k j .gathering) k id else s
    else if j.st = .gathering then (if gangReady s k j then startGang s k j else s)
    else s

/-- The format context that MT.CTX loads (R267). -/
def newCtx (j : Job) : MtCtx :=
  { wf := fld j.c0 63 62, sc := bitOf j.c0 61, ocv := fld j.c0 60 59, rm := fld j.c0 58 57, as_ := jobOp j 0,
    ws := jobOp j 1, harg := fld j.c3 63 32, hpc := fld j.c3 31 0 }

/-- MT_CTX: loads the owning core's format context; complete as soon as it is taken. (R258, R267) -/
def execMtCtx (k id : Nat) (s : State) : Out :=
  .next (match jobAt s k id with
    | none => s
    | some j =>
      if j.ended then finishJob s k id
      else if (nextTaken s k true).map Job.id == some id then
        let s := modCore (take s k j .running) (k * 8 + j.core) fun x => { x with ctx := some (newCtx j) }
        endJob s k id 0
      else s)

/-- MT_TERN: a ternary job is taken, and starts with its gang. (R258, R269) -/
def execMtTern (k id : Nat) (s : State) : Out := .next (gangTurn s k id)
/-- MT_BOOTH: an INT8 radix-4 job is taken, and starts with its gang. (R258, R269) -/
def execMtBooth (k id : Nat) (s : State) : Out := .next (gangTurn s k id)
/-- MT_ZERO: is taken, and starts with its gang. (R259, R270) -/
def execMtZero (k id : Nat) (s : State) : Out := .next (gangTurn s k id)
/-- MT_DRAIN: is taken, and starts with its gang. (R270) -/
def execMtDrain (k id : Nat) (s : State) : Out := .next (gangTurn s k id)

/-- RING_STEP: a running matrix job makes a step on each member. (R252, R257) -/
def execRingStep (k id : Nat) (s : State) : Out := .next (matrixTurn s k id)

/-! ### Row drains (R271, R272) -/

/-- A clamped integer. -/
def clampTo (w : Nat) (v : Int) : Int := max (-(2 ^ (w - 1))) (min (2 ^ (w - 1) - 1) v)

/-- R272: an accumulator as a row delivers it. -/
def rowValue (x : MtCtx) (v : Nat) : Word :=
  if x.sc then
    if x.ocv = 0 then word (Flt.e8m27.convert .f32 (rmOf x.rm) v)
    else if x.ocv = 1 then word (Flt.e8m27.convert .bf16 (rmOf x.rm) v)
    else word v
  else
    let n := (BitVec.ofNat 36 v).toInt
    if x.ocv = 0 then BitVec.ofInt 64 (clampTo 32 n)
    else if x.ocv = 1 then BitVec.ofInt 64 (clampTo 8 n)
    else BitVec.ofInt 64 n

/-- R272: the element size of a row's stream. -/
def rowEsz (x : MtCtx) : Nat := if x.ocv = 2 then 2 else if x.sc then 0 else 1

/-- The first row of a tile that a member has not moved. -/
def nextRow (j : Job) (i : Nat) : Option Nat := (List.range 64).find? fun n => !j.rows.contains (i, n)

/-- R271: a tile whose rows have all moved: the next tile begins, or the job ends with no held set. -/
def tileDone (s : State) (k id : Nat) : State :=
  match jobAt s k id with
  | none => s
  | some j =>
    if (jobMembers j).any fun i => (nextRow j i).isSome then s
    else
      let last := jobOpc j == 5 || decide (tileCount j * chunkCount j ≤ j.step)
      let s := modJob s k id fun j => { j with draining := false, rows := [] }
      if last then endJob (markHeld s k j false) k id 0 else wakeJob s k id

/-- ROW_DRAIN: a member moves its next row into a free row of its drain buffer, clearing its accumulators. (R271) -/
def execRowDrain (k id i : Nat) (s : State) : Out :=
  match jobAt s k id with
  | none => .next s
  | some j =>
    let c := k * 8 + i
    if j.ended || !j.draining || j.st != .running || 4 ≤ (core s c).drain.length || !(jobMembers j).contains i ||
        (j.preempted && savesState j) then
      .next s
    else match j.ctx, nextRow j i with
      | some x, some n =>
        let h := (core s c).held
        let vals := (List.range 64).map fun m => rowValue x ((find h.acc (64 * n + m)).getD 0)
        let row : DrainRow :=
          { job := id, x0 := tileNow j * 2 ^ 16 + 64 * (i - (jobMembers j).headD 0) + n, vals := vals, esz := rowEsz x, started := false }
        let left := h.acc.filter fun a => a.1 / 64 != n
        let s := modCore s c fun y => { y with drain := y.drain ++ [row], held := { h with acc := left } }
        let s := modJob s k id fun j => { j with rows := j.rows ++ [(i, n)] }
        .next (tileDone (postAll s [.rowHandlerStart c, .rowDrain k id i]) k id)
      | _, _ => .next s

/-- The stream that delivers a row's columns (R271). -/
def rowStream (id : Nat) (r : DrainRow) : Stream :=
  { kind := .arrival, esz := r.esz, sg := 0, cnt := 64, stride := 0, job := id, next := 0, elems := r.vals.map Elem.here, held := [] }

/-- R271: a row handler as it is created. -/
def handlerThread (x : MtCtx) (v : Reserved) (r : DrainRow) : Thread :=
  { blank with
    pc := word x.hpc, level := v.level, swid := v.swid, regs := newRegs v.rsz [word r.x0, word r.job, word x.harg, 0],
    rbase := v.rbase, lbase := v.lbase, lsz := v.lsz, segs := v.segs, spt := v.spt, tvec := v.tvec,
    streams := [(0, rowStream r.job r)], handler := some (r.job, r.x0), flotilla := v.flotilla }

/-- The first row of a core's drain buffer that has no handler, with a free reserved slot of its job. -/
def readyRow (s : State) (c : Nat) : Option (DrainRow × Reserved) :=
  let x := core s c
  x.drain.findSome? fun r =>
    if r.started then none
    else (x.reserved.find? fun v => v.job == r.job && !(thr s v.slot).isSome).map fun v => (r, v)

/-- ROW_HANDLER_START: a drained row starts a handler in a reserved slot of its core. (R271) -/
def execRowHandlerStart (c : Nat) (s : State) : Out :=
  match readyRow s c with
  | none => .next s
  | some (r, v) =>
    match (jobAt s (clusterOf c) r.job).bind Job.ctx with
    | none => .next s
    | some x =>
      let s := modCore s c fun y => { y with drain := y.drain.map fun q =>
        if q.job == r.job && q.x0 == r.x0 then { q with started := true } else q }
      let t := { handlerThread x v r with flotilla := countsTo s c v.flotilla }
      .next (post (beginThread s v.slot t) (.rowHandlerStart c))

/-- JOB_PREEMPTION: a matrix job is stopped at a step boundary with its accumulators saved; a copy stops between
barges. (R125, R129, R273) (DEDUCED, log entry 30) -/
def execJobPreemption (k id : Nat) (s : State) : Out :=
  match jobAt s k id with
  | none => .next s
  | some j =>
    if j.ended || beforeStart j || jobUnit j == 2 || (isMatrix j && !savesState j) || j.preempted then .next s
    else
      let s := modJob s k id fun j => { j with preempted := true }
      if !isMatrix j then .next (wakeJob s k id)
      else .next (matrixTurn s k id)

/-- The writes of a job that faulted are sent again. -/
def resendWrites (s : State) (rs : List Access) : State :=
  let isWrite := fun (r : Access) => match r.op with
    | .read _ => false
    | _ => true
  (rs.filter isWrite).foldl (fun s r => atPort s { r with phys := 0 }) s

/-- JOB_RESUME: a stopped job goes on: its faulted accesses are made again, a saved matrix job is restored, a copy
begins its next barge, also one that had not come to its stop yet. (R125, R273, R279) -/
def execJobResume (k id : Nat) (s : State) : Out :=
  match jobAt s k id with
  | none => .next s
  | some j =>
    if !isMatrix j && !j.ended && j.st = .running then .next (wakeJob (modJob s k id fun j => { j with preempted := false }) k id)
    else if j.ended || j.st != .stopped then .next s
    else
      let s := modJob s k id fun j => { j with parked := [] }
      let s := resendWrites s j.parked
      if jobHeld s j then .next s
      else if isMatrix j && j.preempted then .next (matrixTurn s k id)
      else .next (wakeJob (modJob s k id fun j => { j with st := .running, preempted := false }) k id)

end Sys2Proof.Machine
end

