-- ==== Sys2Proof/Machine/Shake.lean ====
section
/-! DEFINITION. SHAKE256 of FIPS 202, by which firmware is measured (spec/28_reliability.md R395). -/

namespace Sys2Proof.Machine

/-- The round constants of Keccak-f[1600]. (PRESUMED, log entry 38) -/
def roundConstants : List Word :=
  [0x0000000000000001, 0x0000000000008082, 0x800000000000808A, 0x8000000080008000, 0x000000000000808B, 0x0000000080000001,
   0x8000000080008081, 0x8000000000008009, 0x000000000000008A, 0x0000000000000088, 0x0000000080008009, 0x000000008000000A] ++
  [0x000000008000808B, 0x800000000000008B, 0x8000000000008089, 0x8000000000008003, 0x8000000000008002, 0x8000000000000080,
   0x000000000000800A, 0x800000008000000A, 0x8000000080008081, 0x8000000000008080, 0x0000000080000001, 0x8000000080008008]

/-- The rotation of lane (x, y), at x + 5 y. (PRESUMED, log entry 38) -/
def laneRotations : List Nat :=
  [0, 1, 62, 28, 27, 36, 44, 6, 55, 20, 3, 10, 43] ++ [25, 39, 41, 45, 15, 21, 8, 18, 2, 61, 56, 14]

/-- Lane (x, y) of a state of 25 lanes. -/
def laneOf (a : List Word) (x y : Nat) : Word := a.getD (x % 5 + 5 * (y % 5)) 0

/-- The step theta. -/
def theta (a : List Word) : List Word :=
  let c := (List.range 5).map fun x => (List.range 5).foldl (fun w y => w ^^^ laneOf a x y) 0
  (List.range 25).map fun i =>
    let x := i % 5
    a.getD i 0 ^^^ c.getD ((x + 4) % 5) 0 ^^^ (c.getD ((x + 1) % 5) 0).rotateLeft 1

/-- The steps rho and pi: the lane that comes to (x, y) is the rotated one of (x + 3 y, x). -/
def rhoPi (a : List Word) : List Word :=
  (List.range 25).map fun i =>
    let k := (i % 5 + 3 * (i / 5)) % 5 + 5 * (i % 5)
    (a.getD k 0).rotateLeft (laneRotations.getD k 0)

/-- The step chi. -/
def chi (a : List Word) : List Word :=
  (List.range 25).map fun i => a.getD i 0 ^^^ (~~~ laneOf a (i % 5 + 1) (i / 5) &&& laneOf a (i % 5 + 2) (i / 5))

/-- A round. -/
def keccakRound (a : List Word) (rc : Word) : List Word :=
  let b := chi (rhoPi (theta a))
  b.set 0 (b.getD 0 0 ^^^ rc)

/-- Keccak-f[1600]. -/
def keccak (a : List Word) : List Word := roundConstants.foldl keccakRound a

/-- A block of 136 bytes taken into the state. -/
def absorb (a : List Word) (bs : List Byte) : List Word :=
  keccak ((List.range 25).map fun i => a.getD i 0 ^^^ (if i < 17 then word (leNat ((bs.drop (8 * i)).take 8)) else 0))

/-- A message padded for SHAKE256: to a multiple of 136 bytes. (PRESUMED, log entry 38) -/
def shakePad (bs : List Byte) : List Byte :=
  let n := 136 - bs.length % 136
  if n = 1 then bs ++ [0x9F] else bs ++ [0x1F] ++ List.replicate (n - 2) 0 ++ [0x80]

/-- All blocks of a message taken in. -/
def absorbAll : Nat → List Word → List Byte → List Word
  | 0, a, _ => a
  | n + 1, a, bs => absorbAll n (absorb a (bs.take 136)) (bs.drop 136)

/-- SHAKE256 of a message: at most 136 bytes of output. (PRESUMED, log entry 38) -/
def shake256 (n : Nat) (bs : List Byte) : List Byte :=
  let p := shakePad bs
  (((absorbAll (p.length / 136) (List.replicate 25 0) p).take 17).flatMap fun w => leBytes 8 w.toNat).take n

/-- R395: a measurement register extended by an image: M := SHAKE256(M ‖ image, 512 bits), the register's bytes lowest
first. -/
def measured (m : BitVec 512) (image : List Byte) : BitVec 512 :=
  BitVec.ofNat 512 (leNat (shake256 64 (leBytes 64 m.toNat ++ image)))

end Sys2Proof.Machine
end

