-- ==== Sys2Proof/Machine/SlhDsa.lean ====
section
/-! DEFINITION. SLH-DSA-SHAKE-256s of FIPS 205, by which firmware is verified and reports are signed
(spec/28_reliability.md R395). The spec names that standard and gives none of its text. -/

namespace Sys2Proof.Machine

/-- An ADRS: layer, tree, type, and three words: key pair; chain or tree height; hash or tree index.
(PRESUMED, log entry 38) -/
structure SlhAdrs where
  layer : Nat
  tree : Nat
  typ : Nat
  pair : Nat := 0
  high : Nat := 0
  index : Nat := 0
  deriving DecidableEq, Repr

/-- A number in n bytes, highest first. -/
def beBytes (n v : Nat) : List Byte := (leBytes n v).reverse

/-- The number that bytes stand for, highest first. -/
def beNat (bs : List Byte) : Nat := leNat bs.reverse

/-- The 32 bytes of an ADRS. -/
def adrsBytes (a : SlhAdrs) : List Byte :=
  beBytes 4 a.layer ++ beBytes 12 a.tree ++ beBytes 4 a.typ ++ beBytes 4 a.pair ++ beBytes 4 a.high ++ beBytes 4 a.index

/-- The function of a public seed, an ADRS and a message by which nodes, chains and secret values are made.
(PRESUMED, log entry 38) -/
def slhHash (seed : List Byte) (a : SlhAdrs) (m : List Byte) : List Byte := shake256 32 (seed ++ adrsBytes a ++ m)

/-- The n digits of b bits that bytes begin with, highest first. -/
def digitsOf (bs : List Byte) (b n : Nat) : List Nat :=
  let v := beNat bs
  (List.range n).map fun i => v / 2 ^ (8 * bs.length - b * (i + 1)) % 2 ^ b

/-- Bytes cut into n strings of 32. -/
def strings (bs : List Byte) (n : Nat) : List (List Byte) := (List.range n).map fun i => (bs.drop (32 * i)).take 32

/-- A node's parent, the sibling given. -/
def parentNode (seed : List Byte) (a : SlhAdrs) (even : Bool) (node auth : List Byte) : List Byte :=
  slhHash seed a (if even then node ++ auth else auth ++ node)

/-- The root that a leaf leads to: its number within the tree, the number of the first leaf of the tree, and the siblings on
the way, lowest first. -/
def climb (seed : List Byte) (a : SlhAdrs) (first leaf : Nat) (auth : List (List Byte)) (node : List Byte) : List Byte :=
  (auth.zip (List.range auth.length)).foldl (fun node x =>
    parentNode seed { a with high := x.2 + 1, index := (first + leaf) / 2 ^ (x.2 + 1) } (leaf / 2 ^ x.2 % 2 == 0) node x.1) node

/-! ### One-time signatures -/

/-- Steps of a chain, from step i on. -/
def chainSteps (seed : List Byte) (a : SlhAdrs) : Nat → Nat → List Byte → List Byte
  | _, 0, x => x
  | i, n + 1, x => chainSteps seed a (i + 1) n (slhHash seed { a with index := i } x)

/-- The 67 digits that are signed: those of a message, and those of its checksum. -/
def wotsDigits (m : List Byte) : List Nat :=
  let ds := digitsOf m 4 64
  ds ++ digitsOf (beBytes 2 ((ds.foldl (fun c d => c + (15 - d)) 0) * 16)) 4 3

/-- The public key that ends of chains make. -/
def wotsKey (seed : List Byte) (a : SlhAdrs) (ends : List (List Byte)) : List Byte :=
  slhHash seed { layer := a.layer, tree := a.tree, typ := 1, pair := a.pair } ends.flatten

/-- The public key of a signature. -/
def wotsFromSig (seed : List Byte) (a : SlhAdrs) (sig : List (List Byte)) (m : List Byte) : List Byte :=
  wotsKey seed a (((sig.zip (wotsDigits m)).zip (List.range 67)).map fun x =>
    chainSteps seed { a with high := x.2 } x.1.2 (15 - x.1.2) x.1.1)

/-- The secret value at the head of a chain. -/
def wotsSecret (sk seed : List Byte) (a : SlhAdrs) (i : Nat) : List Byte :=
  slhHash seed { layer := a.layer, tree := a.tree, typ := 5, pair := a.pair, high := i } sk

/-- A message's one-time signature. -/
def wotsSign (sk seed : List Byte) (a : SlhAdrs) (m : List Byte) : List (List Byte) :=
  ((wotsDigits m).zip (List.range 67)).map fun x => chainSteps seed { a with high := x.2 } 0 x.1 (wotsSecret sk seed a x.2)

/-! ### The tree of trees -/

/-- The ADRS of the one-time key of a leaf. -/
def leafAdrs (layer tree leaf : Nat) : SlhAdrs := { layer := layer, tree := tree, typ := 0, pair := leaf }

/-- The ADRS of the nodes of a tree. -/
def treeAdrs (layer tree : Nat) : SlhAdrs := { layer := layer, tree := tree, typ := 2 }

/-- The root that a signature of 67 + 8 strings in a tree leads to. -/
def xmssFromSig (seed : List Byte) (layer tree leaf : Nat) (sig : List (List Byte)) (m : List Byte) : List Byte :=
  climb seed (treeAdrs layer tree) 0 leaf ((sig.drop 67).take 8) (wotsFromSig seed (leafAdrs layer tree leaf) (sig.take 67) m)

/-- Node i at height z of a tree. -/
def xmssNode (sk seed : List Byte) (layer tree : Nat) : Nat → Nat → List Byte
  | 0, i =>
    let a := leafAdrs layer tree i
    wotsKey seed a ((List.range 67).map fun c => chainSteps seed { a with high := c } 0 15 (wotsSecret sk seed a c))
  | z + 1, i => slhHash seed { treeAdrs layer tree with high := z + 1, index := i }
      (xmssNode sk seed layer tree z (2 * i) ++ xmssNode sk seed layer tree z (2 * i + 1))

/-- A signature in a tree. -/
def xmssSign (sk seed : List Byte) (layer tree leaf : Nat) (m : List Byte) : List (List Byte) :=
  wotsSign sk seed (leafAdrs layer tree leaf) m ++
    (List.range 8).map fun j => xmssNode sk seed layer tree j (leaf / 2 ^ j ^^^ 1)

/-- The root that the signatures of the layers from j on lead to. -/
def treesRoot (seed : List Byte) : Nat → Nat → Nat → Nat → List (List Byte) → List Byte → List Byte
  | 0, _, _, _, _, m => m
  | n + 1, j, tree, leaf, sig, m =>
    treesRoot seed n (j + 1) (tree / 256) (tree % 256) (sig.drop 75) (xmssFromSig seed j tree leaf (sig.take 75) m)

/-- The signatures of the layers from j on. -/
def treesSign (sk seed : List Byte) : Nat → Nat → Nat → Nat → List Byte → List (List Byte)
  | 0, _, _, _, _ => []
  | n + 1, j, tree, leaf, m =>
    let sig := xmssSign sk seed j tree leaf m
    sig ++ treesSign sk seed n (j + 1) (tree / 256) (tree % 256) (xmssFromSig seed j tree leaf sig m)

/-! ### The forest -/

/-- The ADRS of the forest of a leaf. -/
def forsAdrs (tree leaf : Nat) : SlhAdrs := { layer := 0, tree := tree, typ := 3, pair := leaf }

/-- The forest's public key, of its 22 roots. -/
def forsKey (seed : List Byte) (tree leaf : Nat) (roots : List (List Byte)) : List Byte :=
  slhHash seed { layer := 0, tree := tree, typ := 4, pair := leaf } roots.flatten

/-- The forest's public key that a signature of 22 times 1 + 14 strings leads to. -/
def forsFromSig (seed : List Byte) (tree leaf : Nat) (sig : List (List Byte)) (md : List Byte) : List Byte :=
  let a := forsAdrs tree leaf
  forsKey seed tree leaf (((digitsOf md 14 22).zip (List.range 22)).map fun x =>
    let part := (sig.drop (15 * x.2)).take 15
    climb seed a (x.2 * 2 ^ 14) x.1 (part.drop 1) (slhHash seed { a with index := x.2 * 2 ^ 14 + x.1 } (part.headD [])))

/-- A secret value of the forest. -/
def forsSecret (sk seed : List Byte) (tree leaf i : Nat) : List Byte :=
  slhHash seed { layer := 0, tree := tree, typ := 6, pair := leaf, index := i } sk

/-- Node i at height z of the forest. -/
def forsNode (sk seed : List Byte) (tree leaf : Nat) : Nat → Nat → List Byte
  | 0, i => slhHash seed { forsAdrs tree leaf with index := i } (forsSecret sk seed tree leaf i)
  | z + 1, i => slhHash seed { forsAdrs tree leaf with high := z + 1, index := i }
      (forsNode sk seed tree leaf z (2 * i) ++ forsNode sk seed tree leaf z (2 * i + 1))

/-- A digest's signature by the forest. -/
def forsSign (sk seed : List Byte) (tree leaf : Nat) (md : List Byte) : List (List Byte) :=
  ((digitsOf md 14 22).zip (List.range 22)).flatMap fun x =>
    forsSecret sk seed tree leaf (x.2 * 2 ^ 14 + x.1) ::
      (List.range 14).map fun j => forsNode sk seed tree leaf j (x.2 * 2 ^ (14 - j) + (x.1 / 2 ^ j ^^^ 1))

/-! ### Messages -/

/-- A message as it is signed: purely, with an empty context. (PRESUMED, log entry 38) -/
def slhMessage (m : List Byte) : List Byte := [0, 0] ++ m

/-- What a message and the first string of its signature choose: a digest for the forest, a tree and a leaf. -/
def slhDigest (r seed root m : List Byte) : List Byte × Nat × Nat :=
  let d := shake256 47 (r ++ seed ++ root ++ m)
  (d.take 39, beNat ((d.drop 39).take 7), beNat (d.drop 46))

/-- Verification of a signature of 931 strings by a public key. (PRESUMED, log entry 38) -/
def slhDsaVerifies (key : BitVec 512) (message : List Byte) (signature : BitVec 238336) : Bool :=
  let k := leBytes 64 key.toNat
  let seed := k.take 32
  let sig := strings (leBytes 29792 signature.toNat) 931
  let (md, tree, leaf) := slhDigest (sig.headD []) seed (k.drop 32) (slhMessage message)
  treesRoot seed 8 0 tree leaf (sig.drop 331) (forsFromSig seed tree leaf (sig.drop 1) md) == k.drop 32

/-- A message's signature by a key: its secret seed, its secret for messages, and its public seed, of 32 bytes each, with some
randomness. (PRESUMED, log entry 38) -/
def slhDsaSign (sk prf seed rand : List Byte) (message : List Byte) : BitVec 238336 :=
  let m := slhMessage message
  let root := xmssNode sk seed 7 0 8 0
  let r := shake256 32 (prf ++ rand ++ m)
  let (md, tree, leaf) := slhDigest r seed root m
  let forest := forsSign sk seed tree leaf md
  let trees := treesSign sk seed 8 0 tree leaf (forsFromSig seed tree leaf forest md)
  BitVec.ofNat 238336 (leNat ((r :: forest ++ trees).flatten))

end Sys2Proof.Machine
end

