-- ==== Sys2Proof/Machine/Package.lean ====
section
/-! DEFINITION. The package: fault queues (spec/23_traps.md R356, spec/26_translation.md R373), partitions and their
halting, the management mailbox (spec/27_host_links.md R381 to R388), errors, start-up and firmware trust
(spec/28_reliability.md R392 to R396). -/

namespace Sys2Proof.Machine

/-! ### Fault queues (R356, R373) -/

/-- The bytes of a fault record. -/
def faultBytes (r : FaultRec) : List Byte := [r.w0, r.w1, r.w2, r.w3].flatMap fun w => leBytes 8 w.toNat

/-- R356: a record appended to the partition's ring, and the wake that WSWID asks for; none where the ring is full or
cannot be written. -/
def appendFault (s : State) (cid : Nat) (fq : Word) (r : FaultRec) : Option State :=
  let base := fld fq 51 0
  let n := 2 ^ fld fq 63 58
  if fq = 0 then none
  else match partWord s cid base, partWord s cid (base + 8) with
    | some tail, some head =>
      if n ≤ (tail - head).toNat then none
      else
        (partWrite s cid (base + 64 + 32 * (tail.toNat % n)) (faultBytes r)).bind fun s =>
          (partStore s cid base (tail + 1)).map fun s =>
            match partWord s cid (base + 16) with
            | some w => if fld w 31 0 = 0 then s else (wakeSwids s cid (fld w 31 0)).1
            | none => s
    | _, _ => none

/-- R373: a record appended to the hypervisor's ring, which is written by physical address; none where it is full.
(DEDUCED, log entry 13) -/
def appendHyper (s : State) (cid : Nat) (p : Part) (r : FaultRec) : Option State :=
  let base := s2root p + 1024
  let n := 2 ^ fld p.t1 63 60
  let tail := homeWord s cid base
  let head := homeWord s cid (base + 8)
  if n ≤ (tail - head).toNat then none
  else
    let at_ := base + 64 + 32 * (tail.toNat % n)
    let s := physWords (physWords s at_ [r.w0, r.w1, r.w2, r.w3]) base [tail + 1]
    -- both writes are counted, and their lines stand in the memory-side cache (R40, R53)
    some (memRead (memRead s cid (at_ / 128)) cid (base / 128))

/-- The addresses of a ring that an append to it uses: its words, and, once they can be read, the record's place. -/
def ringUses (s : State) (cid : Nat) (fq : Word) : List Nat :=
  let base := fld fq 51 0
  match partWord s cid base with
  | some tail => [base, base + 64 + 32 * (tail.toNat % 2 ^ fld fq 63 58)]
  | none => [base]

/-- R356, R373: a stage-2 fault on the ring itself, at any page that the append uses, as the hypervisor's record of it. -/
def ringFault (s : State) (cid : Nat) (fq : Word) : Option FaultRec :=
  let rec_ := fun (va w1 ia : Nat) =>
    ({ hyper := true, told := false, w0 := word (w1 * 2 ^ 63 + 2 ^ 60 + ia / 8 * 8), w1 := 0, w2 := word cid, w3 := word va } : FaultRec)
  if fq = 0 then none
  else (ringUses s cid fq).findSome? fun va => match (walkVa s 0 cid va).2 with
    | .error (.dataIa ia) => some (rec_ va 0 ia)
    | .error (.tableIa ia) => some (rec_ va 1 ia)
    | _ => none

/-- The oldest record of one of a partition's two queues. -/
def firstFault (p : Part) (hyper : Bool) : Option FaultRec := p.faults.find? fun r => r.hyper == hyper

/-- A pending record taken off. -/
def dropFault (s : State) (cid : Nat) (r : FaultRec) : State := modPart s cid fun p => { p with faults := p.faults.erase r }

/-- R356: the fault of a ring that cannot be reached is itself reported, once for each record that waits for it.
(DEDUCED, log entry 33) -/
def tellRing (s : State) (cid : Nat) (p : Part) (r : FaultRec) : Option State :=
  if r.told then none
  else (ringFault s cid p.fq).map fun h =>
    postAll (modPart s cid fun p => { p with faults := (p.faults.map fun q => if q == r then { q with told := true } else q) ++ [h] })
      [.faultQueueRetry cid, .faultQueueRetry cid]

/-- R356, R373: a waiting record tried again: the hypervisor's first, then the partition's; none where neither can be
written. -/
def tryFault (s : State) (cid : Nat) : Option State :=
  (part s cid).bind fun p =>
    ((firstFault p true).bind fun r => (appendHyper s cid p r).map fun s => dropFault s cid r).orElse fun _ =>
      (firstFault p false).bind fun r =>
        ((appendFault s cid p.fq r).map fun s => dropFault s cid r).orElse fun _ => tellRing s cid p r

/-- A visit to a range of physical memory that lies within a line, under a CID. -/
def physVisit (cid pa n : Nat) (op : VisitOp) : Visit :=
  { h := homeSlice none pa, cid := cid, pa := pa, n := n, op := op, uncached := false, got := .none }

/-- The lines that the hardware visits to append the oldest record of the partition's queue: the ring's words, then the
record's place (R119, R356). -/
def queueVisits (s : State) (cid : Nat) (fq : Word) : List Visit :=
  let base := fld fq 51 0
  let vs := visitsTo s cid base 24 .read ++ visitsTo s cid base 8 .write
  if fq = 0 then []
  else if notFree s vs then vs
  else match partWord s cid base with
    | some tail => vs ++ visitsTo s cid (base + 64 + 32 * (tail.toNat % 2 ^ fld fq 63 58)) 32 .write
    | none => vs

/-- The lines that it visits to append the oldest record of the hypervisor's queue (R373). -/
def hyperVisits (s : State) (cid : Nat) (p : Part) : List Visit :=
  let base := s2root p + 1024
  let tail := homeWord s cid base
  [physVisit cid base 16 .read, physVisit cid base 8 .write, physVisit cid (base + 64 + 32 * (tail.toNat % 2 ^ fld p.t1 63 60)) 32 .write]

/-- The lines visited for the records that wait. -/
def faultVisits (s : State) (cid : Nat) : List Visit :=
  match part s cid with
  | none => []
  | some p =>
    (if (firstFault p true).isSome then hyperVisits s cid p else []) ++
      (if (firstFault p false).isSome then queueVisits s cid p.fq else [])

/-- Whether a waiting record can be tried again now, or the host must first be asked for a half. -/
def faultReady (s : State) (cid : Nat) : Bool :=
  let vs := faultVisits s cid
  mayVisit s vs && (notFree s vs || (tryFault s cid).isSome)

/-- FAULT_QUEUE_RETRY: a fault waiting for a full or unwritable ring is tried again. (R356, R373) -/
def execFaultQueueRetry (cid : Nat) (s : State) : Out :=
  .next (visit s (faultVisits s cid) (.faultQueueRetry cid) fun s => (tryFault s cid).getD s)

/-! ### Scrubs, flushes and halts (R384, R385) -/

/-- Whether an agent is one of some clusters' own, where a core stands for those that name none. -/
def agentOf (ks : List Nat) (core : Nat) : Agent → Bool
  | .host => false
  | .device _ => false
  | .scheduler => false
  | .load slot => ks.contains (clusterOf (coreOf slot))
  | .journal c _ => ks.contains (clusterOf c)
  | .flush c _ => ks.contains (clusterOf c)
  | .fill c _ _ => ks.contains (clusterOf c)
  | .writeBack c _ _ _ => ks.contains (clusterOf c)
  | .prefetch c => ks.contains (clusterOf c)
  | .tow _ c => ks.contains (clusterOf c)
  | .fetch slot => ks.contains (clusterOf (coreOf slot))
  | .engine k _ _ => ks.contains k || ks.contains (clusterOf core)

/-- Whether an access was made by an agent of some clusters. -/
def madeBy (ks : List Nat) (r : Access) : Bool := agentOf ks r.core r.agent

/-- Whether an event belongs to some clusters, whose agents are discarded, or to a line of a partition whose lines
are. -/
def belongs (ks : List Nat) (cid : Nat) (e : Event) : Bool :=
  let ofSlot := fun (slot : Nat) => ks.contains (clusterOf (coreOf slot))
  let ofCore := fun (c : Nat) => ks.contains (clusterOf c)
  match e with
  | .asyncTrapDelivery k => ofSlot k
  | .operationResult k _ => ofSlot k
  | .loadDataArrives ⟨_, k⟩ _ _ _ => ofSlot k
  | .storeDrain c => ofCore c
  | .storeAck ⟨_, c⟩ _ _ _ => ofCore c
  | .hostDone ⟨_, .engine k _ _, _⟩ => ks.contains k
  | .hostDone ⟨_, who, _⟩ => agentOf ks 0 who
  | .requestAtHome _ r => madeBy ks r || (r.cid == cid)
  | .memoryReplyAtHome _ c _ => c == cid
  | .l1FillLands ⟨_, c⟩ k _ _ _ => ofCore c || k == cid
  | .invalidationProbe _ _ k _ => k == cid
  | .probeAckAtHome _ k _ _ => k == cid
  | .towArrivesL1 _ _ k _ _ _ => k == cid
  | .towArrivesBasin _ _ k _ _ _ => k == cid
  | .towAck _ k _ => k == cid
  | .remoteAccessArrival r => madeBy ks r
  | .domainTimeout r => madeBy ks r
  | .basinFillLands ⟨_, c⟩ _ _ _ _ => ofCore c
  | .basinInvalidationProbe _ _ _ _ k _ _ _ => k == cid
  | .recallProbe _ _ _ _ k _ => k == cid
  | .writeBackMessage _ r => madeBy ks r
  | .writeBackAck ⟨_, c⟩ _ _ _ _ _ _ _ => ofCore c
  | .walkComplete k _ _ => ks.contains k
  | .faultQueueRetry c => c == cid
  | .pinvAccept k slot _ _ => ks.contains k || ofSlot slot
  | .spawnArrival q => ofSlot q.from_ || ofCore q.target
  | .saveReported k => ofSlot k
  | .forcedSave c => ofCore c
  | .sleepLimit k => decide (k < 2 ^ 20) && ofSlot k
  | .recvtLimit k => decide (k < 2 ^ 20) && ofSlot k
  | .sluiceTimeout c _ _ => ofCore c
  | .inboxDelivery c _ => ofCore c
  | .messageDelivery m => m.cid == cid
  | .tsTchgWrite c _ => ofCore c
  | .tsJrelWrite c _ => ofCore c
  | .mtCtx k _ => ks.contains k
  | .mtTern k _ => ks.contains k
  | .mtBooth k _ => ks.contains k
  | .mtZero k _ => ks.contains k
  | .mtDrain k _ => ks.contains k
  | .cpCopy k _ => ks.contains k
  | .cpFill k _ => ks.contains k
  | .cpGath k _ => ks.contains k
  | .cpScat k _ => ks.contains k
  | .cpRed k _ => ks.contains k
  | .cpAr k _ => ks.contains k
  | .cpBcast k _ => ks.contains k
  | .copyWriteAck ⟨_, k⟩ _ _ _ _ _ => ks.contains k
  | .ringStep k _ => ks.contains k
  | .rowDrain k _ _ => ks.contains k
  | .rowHandlerStart c => ofCore c
  | .jobPreemption k _ => ks.contains k
  | .jobResume k _ => ks.contains k
  | .collectiveMatch k _ _ => ks.contains k
  | .collectiveTimeout k _ => ks.contains k
  | .chipScratchpadAccess r => madeBy ks r
  | .slotLending k => ofSlot k
  | .jobAged k _ => ks.contains k
  | .headAged c => ofCore c
  | .expanderRead _ r _ _ => madeBy ks r || (r.cid == cid)
  | _ => false

/-- Whether an explicit place belongs to some clusters: their scratchpads, cluster-shared memory and lane slices. -/
def placeOf (ks : List Nat) (a : Nat) : Bool :=
  if a < coreBase then false
  else if a < clusBase then ks.contains (clusterOf ((a - coreBase) / 2 ^ 18))
  else if a < laneBase then ks.contains ((a - clusBase) / 2 ^ 20)
  else ks.contains (clusterOf ((a - laneBase) / 2 ^ 15))

/-- A home line with the accesses of discarded agents taken off. -/
def unhandLine (ks : List Nat) (x : HomeLine) : HomeLine :=
  let quiet := fun (r : Access) => if madeBy ks r then { r with agent := .scheduler } else r
  let silent := fun (b : BackInv) => { b with done := b.done.filter fun d => !agentOf ks 0 d.1 }
  { x with waiting := x.waiting.filter fun r => !madeBy ks r, current := x.current.map quiet, bi := x.bi.map silent }

/-- R384: a slice after the flush of a partition whose clusters are scrubbed. -/
def flushSlice (ks : List Nat) (cid : Nat) (x : Slice) : Slice :=
  { x with
    lines := (x.lines.filter fun l => l.cid != cid).map (unhandLine ks)
    vecs := x.vecs.filter fun v => v.1 != cid
    noRoom := x.noRoom.filter fun r => r.cid != cid && !madeBy ks r
    holders := x.holders.filter fun o => o.cid != cid && !ks.contains (clusterOf o.core)
    dueTows := x.dueTows.filter fun t => t.1 != cid }

/-- R33, R384: a scrubbed core: only its L1's copies of common lines stay, without the marks of a partition's towline. -/
def scrubbedCore (x : Core) : Core :=
  { Core.reset with l1 := (x.l1.filter fun l => l.cid == 0).map fun l => { l with tow := none } }

/-- R384: the scrub of clusters: threads, queues, inboxes and jobs discarded; storage and core-held registers zeroed.
(DEDUCED, log entry 33) -/
def scrub (s : State) (ks : List Nat) (cid : Nat) : State :=
  let away := (s.saved.filter fun x => ks.contains (clusterOf x.core)).map fun x => awayKey x.thread
  let lost := fun (e : Event) => match e with
    | .sleepLimit k => away.contains k
    | .recvtLimit k => away.contains k
    | _ => false
  let s := { s with
    threads := s.threads.filter fun p => !ks.contains (clusterOf (coreOf p.1))
    saved := s.saved.filter fun x => !ks.contains (clusterOf x.core)
    cores := s.cores.map fun p => if ks.contains (clusterOf p.1) then (p.1, scrubbedCore p.2) else p
    mem := s.mem.filter fun p => !placeOf ks p.1
    poison := s.poison.filter fun a => !placeOf ks a
    due := s.due.filter fun e => !belongs ks cid e
    timers := s.timers.filter fun e => !belongs ks cid e && !lost e }
  forEach ks (fun s k => modCluster s k fun x => { Cluster.reset with cid := x.cid, tlb := x.tlb }) s

/-- The memory-side caches without the lines of a CID, whose data are discarded (R384). -/
def flushMside (s : State) (cid : Nat) : State :=
  modPkg s fun p => { p with mside := p.mside.map fun c => (c.1, c.2.filter fun x => x.cid != cid) }

/-- The directory entries of a partition freed, as R310 frees one. -/
def freeEps (s : State) (cid : Nat) : State :=
  let names := s.dies.flatMap fun d => (d.2.eps.filter fun e => e.2.cid == cid && e.2.st != .free).map fun e =>
    (epName d.1 e.2.tag e.1, e.2)
  names.foldl (fun s e => freeEp s e.1 e.2) s

/-- R384: the flush of a partition's identifier: its table entries, towlines, cached lines and holder records; the
groups and endpoint entries of its threads go with them. -/
def flushPartition (s : State) (ks : List Nat) (cid : Nat) : State :=
  let s := (flushCid s cid).1
  let hds := s.dies.flatMap fun d => (d.2.tows.filter fun t => t.2.cid == cid).map fun t => d.1 * 64 + t.1
  let s := freeEps (flushMside (hds.foldl dropTow s) cid) cid
  { s with
    slices := s.slices.map fun h => (h.1, flushSlice ks cid h.2)
    cores := s.cores.map fun p => (p.1, { p.2 with l1 := p.2.l1.filter fun l => l.cid != cid })
    dies := s.dies.map fun d => (d.1, { d.2 with groups := d.2.groups.filter fun g => g.2.cid != cid }) }

/-- R385 step 2: queued launches and running flotillas discarded. A tree that comes free may be what a launch of another
partition waits for (R344). -/
def discardLaunches (s : State) (cid : Nat) : State :=
  let fs := (s.flotillas.filter fun f => f.2.cid == cid).map Prod.fst
  let free := fun (d : Die) =>
    let ts := (d.treeOwner.filter fun t => fs.contains t.2).map Prod.fst
    { d with treeOwner := d.treeOwner.filter fun t => !ts.contains t.1, trees := d.trees.filter fun t => !ts.contains t.1 }
  let s := { modPart s cid fun p => { p with queues := [] } with
    flotillas := s.flotillas.filter fun f => f.2.cid != cid
    dies := s.dies.map fun d => (d.1, free d.2) }
  postAll s ((s.parts.filter fun p => p.1 != cid).map fun p => .launchPlacement p.1)

/-- The virtual function bound to a partition. -/
def boundVf (s : State) (cid : Nat) : Option Nat := (s.pkg.vfs.find? fun v => v.2.part == cid && cid != 0).map Prod.fst

/-- R385: what the homes and the memory-side caches hold of a partition's lines, written to memory: its acknowledged writes
stand there before the flush. (DEDUCED, log entry 33) -/
def settleWrites (s : State) (cid : Nat) : State :=
  let s := msFlush s fun x => x.cid == cid
  let ls := s.slices.flatMap fun h => h.2.lines.filter fun x => x.cid == cid && x.dirty
  ls.foldl (fun s x => match x.data with
    | some d => { s with mem := writeBytes s.mem (x.line * 128) d }
    | none => s) s

/-- R385: a partition is halted. No access of the spec is a write towards the host, so none is dropped.
(DEDUCED, log entry 33) -/
def halt (s : State) (cid : Nat) : State :=
  match part s cid with
  | none => s
  | some p =>
    let s := modPart s cid fun p => { p with halted := true, faults := [] }
    let s := discardLaunches s cid
    let s := flushPartition (scrub (settleWrites s cid) p.clusters cid) p.clusters cid
    match boundVf s cid with
    | some v => modVf s v fun x => { x with halt := true, haltRec := word (2 ^ 63 + cid) }
    | none => s

/-- R385: a halted partition starts again, empty: HALT cleared, the ring's HEAD at 0. (DEDUCED, log entry 33) -/
def restart (s : State) (cid v : Nat) : State :=
  match part s cid with
  | none => s
  | some p =>
    if p.halted then
      let s := modPart s cid fun p => { p with halted := false, head := 0, tail := 0 }
      let s := (partStore s cid p.rbase 0).getD s
      let put_ := fun (s : State) (k : Nat) => forEach (List.range 8) (fun s i => modCore s (k * 8 + i) fun x =>
        { x with fq := p.fq, ctxa := p.ctxa, dtv := p.dtv }) s
      modVf (forEach p.clusters put_ s) v fun x => { x with halt := false, tail := 0 }
    else s

/-- The line of a halted partition's ring that its start writes: the ring's HEAD. -/
def restartVisits (s : State) (cid : Nat) : List Visit :=
  match part s cid with
  | some p => if p.halted then visitsTo s cid p.rbase 8 .write else []
  | none => []

/-- The lines that setting VF Enable again writes. -/
def enableVisits (s : State) : List Visit := s.pkg.vfs.flatMap fun v => restartVisits s v.2.part

/-- VF_ENABLE_CLEAR: clearing VF Enable halts every bound partition. (R385) -/
def execVfEnableClear (s : State) : Out :=
  let cids := (s.pkg.vfs.filter fun v => v.2.part != 0).map fun v => v.2.part
  .next (cids.foldl halt (modPkg s fun p => { p with vfEnable := false }))

/-- VF_ENABLE_SET: setting VF Enable again clears HALT and starts the partitions empty. (R385) -/
def execVfEnableSet (s : State) : Out :=
  .next (visit (modPkg s fun p => { p with vfEnable := true }) (enableVisits s) .vfEnableSet fun s =>
    s.pkg.vfs.foldl (fun s v => restart s v.2.part v.1) s)

/-- FUNCTION_LEVEL_RESET: a Function Level Reset of a VF halts its partition. (R385) -/
def execFunctionLevelReset (n : Nat) (s : State) : Out :=
  .next (if (vf s n).part = 0 then s else halt s (vf s n).part)

/-! ### The management mailbox (R381, R382) -/

/-- Whether an event is a mailbox command. -/
def isMailbox : Event → Bool
  | .partCreate _ => true
  | .partDestroy _ => true
  | .vfBind _ _ => true
  | .flushCommon => true
  | .domainSet _ _ => true
  | _ => false

/-- A mailbox command ended with a result (R382). -/
def mailDone (s : State) (code : Nat) : State := modPkg s fun p => { p with mailbox := word (2 ^ 63 + code) }

/-- R382, R394: a command word written: ignored while another command runs; not begun before READY or before its own
condition holds. (DEDUCED, log entry 33) -/
def mailbox (s : State) (e : Event) (cmd : Nat) (args : List Word) (go : Bool) (run : State → State) : Out :=
  if s.due.any isMailbox then .next s
  else
    let s := modPkg s fun p => { p with mailCmd := word cmd, mailArgs := args ++ p.mailArgs.drop args.length, mailbox := 0 }
    if s.pkg.ready && go then .next (run s) else .next (post s e)

/-- R381: the clusters that a descriptor names. -/
def descClusters (d : List Word) : List Nat := (List.range 256).filter fun k => bitOf (d.getD (1 + k / 64) 0) (k % 64)

/-- R354: whether a value of TS.FQ breaks its layout; 0 names no queue. (DEDUCED, log entry 23) -/
def queueWordBad (w : Word) : Bool :=
  fld w 57 52 != 0 || fld w 5 0 != 0 || (w != 0 && (decide (fld w 63 58 < 4) || decide (16 < fld w 63 58)))

/-- R354: whether a value of TS.CTXA breaks its layout. (DEDUCED, log entry 23) -/
def areaWordBad (w : Word) : Bool := fld w 55 52 != 0 || fld w 15 0 != 0

/-- R381: whether a descriptor is malformed: a reserved field that is not 0, or a value out of its range.
(DEDUCED, log entry 23) -/
def partDescBad (d : List Word) : Bool :=
  let w := fun i => d.getD i 0
  let unit := fun (v : Word) => fld v 63 46 != 0 || fld v 15 0 != 0
  let rn := fld (w 14) 63 60
  let h0 := fld (w 5) 45 16
  let h1 := h0 + fld (w 6) 45 16
  let c0 := fld (w 7) 45 16
  let c1 := c0 + fld (w 8) 45 16
  fld (w 0) 63 20 != 0 || decide (fld (w 10) 63 60 < 4) || fld (w 0) 19 12 == 0 || fld (w 0) 11 0 == 0 || (descClusters d).isEmpty ||
    unit (w 5) || unit (w 6) || unit (w 7) || unit (w 8) || unit (w 9) || fld (w 10) 59 46 != 0 || fld (w 10) 9 0 != 0 ||
    rn == 0 || decide (12 < rn) || fld (w 14) 59 52 != 0 || fld (w 14) 6 0 != 0 || w 15 != 0 ||
    queueWordBad (w 11) || areaWordBad (w 12) || (decide (c0 < h1) && decide (h0 < c1) && h1 != h0 && c1 != c0)

/-- R381: a partition as its descriptor makes it. (DESIGN CHOICE, log entry 5) -/
def newPart (d : List Word) : Part :=
  let w := fun i => d.getD i 0
  { bw := fld (w 0) 19 12, clusters := descClusters d, hbase := fld (w 5) 45 16, hsize := fld (w 6) 45 16,
    cbase := fld (w 7) 45 16, csize := fld (w 8) 45 16, t0 := w 9, t1 := w 10, fq := w 11, ctxa := w 12, dtv := w 13,
    rn := fld (w 14) 63 60, rbase := fld (w 14) 51 0, launchCtr := 0, wrapped := false, queues := [], head := 0, tail := 0,
    halted := false, faults := [] }

/-- R381, R382: whether a new partition's CID, a cluster or a range is taken; a range is that meets a table area or the
hotness area, which lie outside every range. (DEDUCED, log entry 34) -/
def partTaken (s : State) (cid : Nat) (p : Part) : Bool :=
  let mine := (rangesOf p).filter fun a => a.2 != 0
  let units := fun (a : Nat × Nat) => (a.1 * 2 ^ 16, a.2 * 2 ^ 16)
  (part s cid).isSome || (mine.any fun a => (tableAreas s ++ hotAreas s).any (spans (units a))) || s.parts.any fun q =>
    p.clusters.any q.2.clusters.contains || mine.any fun a => (rangesOf q.2).any fun b => b.2 != 0 && spans a b

/-- R53, R371: the walks for a ring's pages, from the first to the last, are noted. -/
def noteRing (s : State) (cid va n : Nat) : State :=
  (List.range ((va + n - 1) / 2 ^ 16 + 1 - va / 2 ^ 16)).foldl (fun s i => noteWalk s 0 (walkVa s 0 cid ((va / 2 ^ 16 + i) * 2 ^ 16)).1) s

/-- R382: whether the whole ring lies in the partition's ranges, as its translation context maps it. -/
def ringInRanges (s : State) (cid : Nat) (p : Part) : Bool :=
  let s := { s with parts := put s.parts cid p }
  (List.range (2 ^ p.rn + 1)).all fun i => match translate s cid (p.rbase + 128 * i) with
    | some e =>
      let u := (e.pa + (p.rbase + 128 * i) % e.size) / 2 ^ 16
      (rangesOf p).any fun r => decide (r.1 ≤ u) && decide (u < r.1 + r.2)
    | none => false

/-- R382, R384: a partition made of scrubbed clusters, unbound and empty. (DEDUCED, log entry 33) -/
def makePart (s : State) (cid : Nat) (p : Part) : State :=
  let s := scrub s p.clusters cid
  let s := { s with parts := put s.parts cid p }
  forEach p.clusters (fun s k =>
    let s := modCluster s k fun x => { x with cid := cid }
    forEach (List.range 8) (fun s i => modCore s (k * 8 + i) fun x => { x with fq := p.fq, ctxa := p.ctxa, dtv := p.dtv }) s) s

/-- PART_CREATE: creates a partition from a descriptor, scrubbing its clusters. (R381, R382) -/
def execPartCreate (d : List Word) (s : State) : Out :=
  mailbox s (.partCreate d) 1 d true fun s =>
    let cid := fld (d.getD 0 0) 11 0
    let p := newPart d
    if partDescBad d then mailDone s 1
    else if partTaken s cid p then mailDone s 2
    else
      -- the walks read the tables that the new context names
      let asIf := noteRing { s with parts := put s.parts cid p } cid p.rbase (128 * (2 ^ p.rn + 1))
      if !ringInRanges s cid p then mailDone { asIf with parts := s.parts } 3
      else mailDone (makePart { asIf with parts := s.parts } cid p) 0

/-- PART_DESTROY: halts a partition and frees its clusters and CID. (R382, R385) -/
def execPartDestroy (cid : Nat) (s : State) : Out :=
  mailbox s (.partDestroy cid) 2 [word cid] true fun s =>
    match part s cid with
    | none => mailDone s 1
    | some p =>
      let s := halt s cid
      let s := match boundVf s cid with
        | some v => modVf s v fun x => { x with part := 0 }
        | none => s
      let s := forEach p.clusters (fun s k => modCluster s k fun x => { x with cid := 0 }) s
      mailDone { s with parts := del s.parts cid } 0

/-- VF_BIND: binds or unbinds a virtual function and a partition. (R382, R385) -/
def execVfBind (n cid : Nat) (s : State) : Out :=
  mailbox s (.vfBind n cid) 3 [word n, word cid] true fun s =>
    if n = 0 ∨ 64 ≤ n ∨ (cid ≠ 0 ∧ (part s cid).isNone) then mailDone s 1
    else if cid = 0 then mailDone (modVf s n fun v => { v with part := 0 }) 0
    else if ((vf s n).part ≠ 0 ∧ (vf s n).part ≠ cid) ∨ ((boundVf s cid).any fun v => v != n) then mailDone s 2
    else visit s (restartVisits s cid) (.vfBind n cid) fun s =>
      mailDone (restart (modVf s n fun v => { v with part := cid, halt := false }) cid n) 0

/-- The lines of common pages in the L2s: slice and line (R33). -/
def commonLines (s : State) : List (Nat × HomeLine) :=
  s.slices.flatMap fun h => (h.2.lines.filter fun x => x.cid == 0 && x.data.isSome).map fun x => (h.1, x)

/-- A common line written back and invalidated, its holders first (R33, R38). -/
def flushLine (s : State) (h : Nat) (x : HomeLine) : State := if hasHolders s h x then beginEvict s h x else dropLine s h x

/-- Whether FLUSH-COMMON can go on: a common line may leave, or none is left. -/
def flushReady (s : State) : Bool :=
  let ls := commonLines s
  ls.isEmpty || ls.any fun x => mayLeave x.2

/-- The common lines of the memory-side caches written back to memory and invalidated. -/
def flushCommonSide (s : State) : State :=
  let ls := s.pkg.mside.flatMap fun c => (c.2.filter fun x => x.cid == 0).map MsLine.line
  ls.foldl (fun s l => msDrop s 0 l) s

/-- FLUSH_COMMON: writes back and invalidates every CID 0 line; it ends when none is left. (R33, R382)
(DEDUCED, log entry 33) -/
def execFlushCommon (s : State) : Out :=
  mailbox s .flushCommon 4 [] (flushReady s) fun s =>
    let s := ((commonLines s).filter fun x => mayLeave x.2).foldl (fun s x => flushLine s x.1 x.2) s
    if (commonLines s).isEmpty then mailDone (flushCommonSide s) 0 else post s .flushCommon

/-! ### The domain (R387, R388) -/

/-- R388: a pair of an import entry, if it is valid. -/
def importPair (e : List Word) (k : Nat) : Option Word := if bitOf (e.getD 0 0) k then some (e.getD (1 + k) 0) else none

/-- R388: whether an import entry is wrong. -/
def importBad (s : State) (e : List Word) : Bool :=
  let ps := (List.range 16).filterMap (importPair e)
  let ids := ps.map fun w => fld w 11 0
  fld (e.getD 0 0) 63 16 != 0 || (e.drop 17).any (fun w => w != 0) ||
    ps.any (fun w => fld w 63 24 != 0 || (part s (fld w 23 12)).isNone) || ids.eraseDups.length != ids.length

/-- R388: the pairs of an import entry: source and local CID. -/
def importPairs (e : List Word) : List (Nat × Nat) :=
  (List.range 16).filterMap fun k => (importPair e k).map fun w => (fld w 11 0, fld w 23 12)

/-- R387, R388: the device number, the timeout and the import table set, or BADARG. -/
def setDomain (s : State) (w : Word) (area : List Word) : State :=
  let es := pieces 32 64 (area ++ List.replicate (2048 - area.length) 0)
  let t := fld w 31 12
  let s := modPkg s fun p => { p with importArea := area }
  if fld w 63 32 ≠ 0 ∨ fld w 11 6 ≠ 0 ∨ t = 0 ∨ 100000 < t ∨ es.any (importBad s) then mailDone s 1
  else
    let table := (es.zipIdx.map fun e => (e.2, importPairs e.1)).filter fun e => !e.2.isEmpty
    mailDone (modPkg s fun p => { p with dev := fld w 5 0, timeout := t, imports := table }) 0

/-- Whether another device made an access. -/
def fromDevice (r : Access) : Bool :=
  match r.agent with
  | .device _ => true
  | _ => false

/-- Whether an event is a DOM access under way. -/
def isDom : Event → Bool
  | .domainTimeout _ => true
  | .requestAtHome _ r => fromDevice r
  | .expanderRead _ r _ _ => fromDevice r
  | _ => false

/-- Whether a DOM access of another device waits at a cluster's port or is being served at a home. -/
def domHeld (s : State) : Bool :=
  let ofLine := fun (x : HomeLine) => x.waiting.any fromDevice || x.current.any fromDevice
  (s.slices.any fun h => h.2.lines.any ofLine || h.2.noRoom.any fromDevice) ||
    s.clusters.any fun k => k.2.queued.any fromDevice || k.2.held.any fromDevice || k.2.faulted.any fromDevice ||
      k.2.walks.any fun w => w.waiting.any fromDevice

/-- R382: whether no DOM access is outstanding at the device. -/
def domQuiet (s : State) : Bool := !(s.timers.any isDom) && !(s.due.any isDom) && !domHeld s

/-- DOMAIN_SET: sets the device number, domain timeout and import table, once no DOM access is outstanding. (R382, R387,
R388) -/
def execDomainSet (w : Word) (area : List Word) (s : State) : Out :=
  mailbox s (.domainSet w area) 5 [w] (domQuiet s) fun s => setDomain s w area

/-- The Aqueduct port that the route to a device uses (R387). (DESIGN CHOICE, log entry 16) -/
def routeOf (s : State) (dev : Nat) : Nat := (find s.pkg.routes dev).getD (Config.routePort dev % 16)

/-- The routes of a failed port moved to ports that are up. -/
def moveRoutes (s : State) (n : Nat) : NMap Nat :=
  let up := (List.range 16).filter fun p => p != n && !s.pkg.portsDown.contains p
  let other := fun (dev : Nat) => up.getD (Config.routePort (dev + 64 * (n + 1)) % up.length) n
  ((List.range 64).filter fun dev => routeOf s dev == n).foldl (fun m dev => put m dev (other dev)) s.pkg.routes

/-- Whether a route to some other device of a collective uses a port. -/
def crosses (s : State) (n : Nat) (j : Job) : Bool :=
  jobUnit j == 2 && j.st == .running && !j.ended && (List.range 64).any fun d => d != s.pkg.dev && bitOf j.c3 d && routeOf s d == n

/-- AQUEDUCT_PORT_FAILURE: the routes of a failed port move to another; the accesses and collectives that are outstanding on
it are answered by the domain timeout alone (R116, R280). (R387) -/
def execAqueductPortFailure (n : Nat) (s : State) : Out :=
  if 16 ≤ n || s.pkg.portsDown.contains n then .next s
  else
    let lost := s.timers.filterMap fun e => match e with
      | .domainTimeout r => if routeOf s r.tgt = n then some r.tx else none
      | _ => none
    let hit := fun (j : Job) => if crosses s n j then { j with cutOff := true } else j
    .next (modPkg { s with clusters := s.clusters.map fun k => (k.1, { k.2 with jobs := k.2.jobs.map hit }) } fun p =>
      { p with portsDown := p.portsDown ++ [n], routes := moveRoutes s n, lostTx := p.lostTx ++ lost })

/-! ### Errors (R386, R392, R393) -/

/-- R386: granules of a line of the CXL tier logged as uncorrectable. -/
def logExpander (s : State) (h cid line : Nat) (halves : List Nat) : State :=
  halves.foldl (fun s g => logAt s (errorRec 2 10 (line * 128 + 64 * g) h cid)) s

/-- The granules of its line that a write covers or touches (R52). -/
def writtenHalves (r : Access) : List Nat :=
  match r.op with
  | .write cells => [0, 1].filter fun k => cells.any fun c => c.1 % 128 / 64 == k
  | .reduce _ _ _ _ es => [0, 1].filter fun k => es.any fun e => e.off % 128 / 64 == k
  | .atomic _ n _ _ => halvesOf r.phys n
  | _ => [0, 1]

/-- The words of a line that hold no poison. -/
def goodWords (s : State) (line : Nat) : List Nat :=
  (List.range 32).filter fun w => !poisoned s (line * 128 + 4 * w) 4

/-- R386: a read of a line that waits at its home has no response: the bytes that it delivers are poisoned, and memory's own
are as they were. -/
def readLost (s : State) (h cid line : Nat) : State :=
  let ws := goodWords s line
  let s := markPoison (logExpander s h cid line [0, 1]) (line * 128) 128
  let got := fun (l : HomeLine) => { l with data := some (msPeek s cid line), filling := false, lost := ws }
  let s := modLine s h cid line got
  match lineAt s h cid line with
  | some x => settleLine (useWay s h x) h cid line
  | none => s

/-- The uncached read of a line that waits for an expander, as its event. -/
def awaitedRead (s : State) (h cid line : Nat) : Option Event :=
  s.due.find? fun e => match e with
    | .expanderRead g r _ _ => g == h && r.cid == cid && r.phys / 128 == line
    | _ => false

/-- An expander's read reaches its reader: a job's waits for the step that asked for it. -/
def answerExpander (s : State) (h : Nat) (r : Access) (bs : List Byte) (bad : List Nat) : State :=
  match r.agent with
  | .engine k id _ =>
    let got : ExtRead := { phys := r.phys, bytes := bs, bad := bad }
    wakeJob (modJob s k id fun j => { j with ext := j.ext ++ [got] }) k id
  | _ => answerRead s (nodeSlice h) r bs bad

/-- The write of granules of a line that waits for an expander, as its event. -/
def awaitedWrite (s : State) (cid line : Nat) : Option (Event × List Nat) :=
  s.due.findSome? fun e => match e with
    | .expanderWrite c l gs => if c = cid ∧ l = line then some (e, gs) else none
    | _ => none

/-- Whether a read at a home goes on to a line's memory. -/
def readsBehind (s : State) (h cid line h' cid' pa : Nat) : Bool :=
  h' == h && cid' == cid && pa / 128 == line && ((lineAt s h cid line).bind HomeLine.data).isNone

/-- The granules of a line that a walk in flight reads from memory. -/
def walkedHalves (s : State) (h cid line : Nat) : List Nat :=
  let all := s.clusters.flatMap fun k => k.2.walks.flatMap fun w => walkVisits s k.1 w.cid w.page
  (all.filter fun v => readsBehind s h cid line v.h v.cid v.pa).flatMap fun v => halvesOf v.pa v.n

/-- The granules of a line that a slot's thread reads from memory as it fetches. -/
def fetchedHalves (s : State) (h cid line : Nat) (slot : Nat) (t : Thread) : List Nat :=
  let r := refAt t 7 t.pc 4
  let q := fetchAccess { s with cur := slot } r
  if t.status != .ready || r.kind != .glob then []
  else match tlbFind (cluster s (clusterOf q.core)).tlb q.cid q.addr with
  | some e =>
    let q := translated e q
    if readsBehind s h cid line (homeSlice q.home q.phys) q.cid q.phys then halvesOf q.phys 4 else []
  | none => []

/-- The granules of a line that fetches and walks read from memory: their poisoned bytes are read as they stand.
(DEDUCED, log entry 18) -/
def plainReads (s : State) (h cid line : Nat) : List Nat :=
  (walkedHalves s h cid line ++ s.threads.flatMap fun t => fetchedHalves s h cid line t.1 t.2).eraseDups

/-- CXL_RESPONSE_TIMEOUT: an outstanding read of the CXL tier with no response returns poison; a write with none is logged as
an uncorrectable error of its granules, which are poisoned. Nothing comes of it where no such access is outstanding.
(R386, R391) (DESIGN CHOICE, log entry 39) -/
def execCxlResponseTimeout (h cid line : Nat) (write : Bool) (s : State) : Out :=
  let reply := Event.memoryReplyAtHome h cid line
  let without := fun (e : Event) => { s with due := s.due.erase e }
  let at_ := if s.due.contains reply then lineAt s h cid line else none
  let failed := fun (s : State) (gs : List Nat) =>
    gs.foldl (fun s g => markPoison s (line * 128 + 64 * g) 64) (logExpander s h cid line gs)
  if (channelOf line).isSome then .next s
  else if write then
    match at_.filter HomeLine.memWait, awaitedWrite s cid line with
    | some x, _ => execMemoryReplyAtHome h cid line (failed (without reply) ((x.current.map writtenHalves).getD [0, 1]))
    | none, some (e, gs) => .next (failed (without e) gs)
    | none, none => .next s
  else if (at_.map HomeLine.filling).getD false then .next (readLost (without reply) h cid line)
  else match awaitedRead s h cid line with
    | some (.expanderRead g r bs bad) =>
      let s := logExpander (without (.expanderRead g r bs bad)) h cid line (halvesOf r.phys bs.length)
      .next (answerExpander s h r bs (List.range bs.length))
    | _ => .next (logExpander s h cid line (plainReads s h cid line))

/-- An expander answers an uncached read (R386). -/
def execExpanderRead (h : Nat) (r : Access) (bs : List Byte) (bad : List Nat) (s : State) : Out :=
  .next (answerExpander s h r bs bad)

/-- An expander has answered a write: nothing waits for it (R386). -/
def execExpanderWrite (_cid _line : Nat) (_halves : List Nat) (s : State) : Out := .next s

/-! ### Errors that reads find (R389, R391) -/

/-- The resident thread of a core whose register window a byte of the register file lies in. -/
def regOwner (s : State) (c b : Nat) : Option Nat :=
  ((residents s c).find? fun t => decide (8 * t.2.rbase ≤ b) && decide (b < 8 * (t.2.rbase + t.2.regs.length))).map Prod.fst

/-- The resident thread of a core whose lane window a byte of the lane slice lies in. -/
def laneOwner (s : State) (c b : Nat) : Option Nat :=
  ((residents s c).find? fun t => decide (4 * t.2.lbase ≤ b % 2048) && decide (b % 2048 < 4 * (t.2.lbase + t.2.lsz))).map Prod.fst

/-- The resident thread whose window an error lies in, however the error names its place. -/
def windowSlot (s : State) : ErrAt → Option Nat
  | .window slot b => regOwner s (coreOf slot) b
  | .lanes slot b => laneOwner s (coreOf slot) b
  | .place a => if laneBase ≤ a then laneOwner s ((a - laneBase) / 2 ^ 15) ((a - laneBase) % 2 ^ 15) else none
  | _ => none

/-- R391: an uncorrectable error in a resident thread's windows, or in a saved thread's context record, ends it.
(DESIGN CHOICE, log entry 39) -/
def endByError (s : State) (p : ErrAt) : State :=
  match windowSlot s p, p with
  | some slot, _ => endThread s slot true
  | none, .context c slot => match s.saved.find? fun x => x.core == c && x.slot == slot with
    | some x => post (recordFreed (endSaved s x true) c) (.slotGrant c)
    | none => s
  | none, _ => s

/-- The record of an error that a read has found, but for its type; none where the structure holds no such granule.
A context record counts as the register file, and what stands behind the homes as of the die of its package-spread home.
(DESIGN CHOICE, log entry 39) -/
def errorAt (s : State) (p : ErrAt) (typ : Nat) : Option ErrRec :=
  match p with
  | .window slot b => some (coreRec typ 0 b (coreOf slot) (cidOf s (coreOf slot)))
  | .lanes slot b => some (coreRec typ 1 b (coreOf slot) (cidOf s (coreOf slot)))
  | .context c slot => if s.saved.any fun x => x.core == c && x.slot == slot then some (coreRec typ 0 slot c (cidOf s c)) else none
  | .place a => if a < chipBase then none else some (placeRec s a typ)
  | .l1 c cid pa => (l1Find (core s c) cid (pa / 128)).map fun _ => coreRec typ 4 pa c cid
  | .l2 h cid pa => ((lineAt s h cid (pa / 128)).bind HomeLine.data).map fun _ => errorRec typ 5 pa h cid
  | .memory pa => if (homeCopies s (pa / 128)).isEmpty then some (memoryRec s pa typ) else none
  | .tables h b => some (errorRec typ 6 b h 0)

/-- Words of a line that are poisoned from now on, of those given. -/
def newlyBad (s : State) (a n : Nat) : List Nat :=
  ((List.range ((n + 3) / 4)).map fun i => a / 4 * 4 + 4 * i).filterMap fun w => if poisoned s w 4 then none else some (w % 128 / 4)

/-- R389: the granule that an error lies in is poisoned where it is held: in a copy alone, as long as that is the memory's own
data unchanged. -/
def poisonAt (s : State) : ErrAt → State
  | .place a => markPoison s a 4
  | .lanes slot b => markPoison s (lanePlace (coreOf slot) (b % 2 ^ 15)) 4
  | .window slot b => modCore s (coreOf slot) fun x => { x with badRegs := addPoison x.badRegs (b / 4 * 4) }
  | .l1 c cid pa =>
    let hit := fun (l : L1Line) => l.cid == cid && l.line == pa / 128
    modCore s c fun x => { x with l1 := x.l1.map fun l => if hit l then { l with bad := addPoison l.bad (pa % 128 / 4) } else l }
  | .l2 h cid pa =>
    let ws := newlyBad s pa 4
    markPoison (modLine s h cid (pa / 128) fun l => { l with lost := l.lost ++ ws }) pa 4
  | .memory pa =>
    let g := granule pa
    let ws := newlyBad s (pa / g * g) g
    let held := fun (x : MsLine) => if x.line == pa / 128 then { x with lost := x.lost ++ ws } else x
    let s := match channelOf (pa / 128) with
      | some ch => if (mside s ch).any fun x => x.line == pa / 128 then setMside s ch ((mside s ch).map held) else s
      | none => s
    markPoison s (pa / g * g) g
  | .tables h b => modSlice s h fun x => { x with badTables := addPoison x.badTables (b / 4 * 4) }
  | .context _ _ => s

/-- A read finds an error in a granule: one that the code corrects is corrected in the data delivered and where it is held, and
logged; else the granule is poisoned and logged, and a thread whose window it lies in ends. (R389, R391)
(DESIGN CHOICE, log entry 39) -/
def execErrorFound (p : ErrAt) (bad : Bool) (s : State) : Out :=
  .next (match errorAt s p (if bad then 2 else 1) with
    | none => s
    | some e =>
      let s := logAt s e
      if bad then endByError (poisonAt s p) p else s)

/-- The address by which an error that no access has met is kept: the granule's own. -/
def unmetAt : ErrAt → Option Nat
  | .place a => some (a / 4 * 4)
  | .l2 _ _ pa => some (pa / 4 * 4)
  | .memory pa => some (pa / granule pa * granule pa)
  | _ => none

/-- A granule can be corrected no more, and no access has met it: the next read logs it, and a write of part of it is the one
that poisons it (R390). Of windows, copies in an L1, contexts and tables an error is found by `errorFound` alone.
(DESIGN CHOICE, log entry 39) -/
def execErrorHidden (p : ErrAt) (s : State) : Out :=
  .next (match errorAt s p 2, unmetAt p with
    | some _, some u => if (windowSlot s p).isSome || poisoned s u 4 then s else { poisonAt s p with unlogged := s.unlogged ++ [u] }
    | _, _ => s)

/-! ### Self-tests (R393) -/

/-- The unit whose way a test retires: a core's L1, a slice, or a channel. -/
def retireUnit (t : RowTest) : Nat := if t.str = 8 then controllerOf t.adr else t.unit

/-- The cluster or slice that the records of a test name. -/
def testClu (t : RowTest) : Nat := if t.str ≤ 2 ∨ t.str = 4 then clusterOf t.unit else t.unit

/-- A record of what a test has found. -/
def testRec (typ : Nat) (t : RowTest) : ErrRec := { errorRec typ t.str t.adr (testClu t) t.cid with unit := t.unit }

/-- The ways of a cache of a structure (R37, R38, R40). -/
def cacheWays (str : Nat) : Nat := if str = 4 then 4 else if str = 5 then 12 else 8

/-- Whether a slice's lines all lie in ways that it still has. -/
def waysClear (s : State) (h : Nat) : Bool :=
  (slice s h).lines.all fun x => (x.data.isNone && !x.filling) || decide (x.way < waysOf s h (lineSet x.line))

/-- R393: a line with poison is not written back as its way goes: what differs from memory is lost.
(DESIGN CHOICE, log entry 39) -/
def unwritten (s : State) (h : Nat) (x : HomeLine) : HomeLine :=
  if x.dirty && decide (waysOf s h (lineSet x.line) ≤ x.way) && poisoned s (x.line * 128) 128 then
    { x with dirty := false, lost := badWords s x.line }
  else x

/-- Lines beyond the ways that are left leave a cache: an L1's at once, a memory-side cache's written back, an L2's as victims
do; those with poison are dropped. -/
def shrinkCache (s : State) (str unit : Nat) : State :=
  if str = 4 then
    let ls := (core s unit).l1
    let over_ := fun (x : L1Line) =>
      decide (4 - retiredWays s 4 unit ≤ (ls.takeWhile fun y => y != x).countP fun y => y.line % 128 == x.line % 128)
    (ls.filter over_).foldl (fun s x => l1Drop s unit x.cid x.line) s
  else if str = 5 then
    let s := modSlice s unit fun y => { y with lines := y.lines.map (unwritten s unit) }
    (((slice s unit).lines.map fun x => lineSet x.line).eraseDups).foldl (fun s k => vacate s unit k) s
  else msShrink s unit

/-- R393: with no spare left, a cache way is retired once its lines have been written back, with a record of TYPE 5; a stack's
row is repaired within it, or its page named in such a record; elsewhere DEG is set. (DESIGN CHOICE, log entry 39) -/
def noSpare (s : State) (t : RowTest) (repaired : Bool) : State :=
  let cache := t.str = 4 ∨ t.str = 5 ∨ t.str = 8
  let unit := retireUnit t
  if t.str = 9 then if repaired then s else logAt s (testRec 5 t)
  else if cache ∧ retiredWays s t.str unit + 1 < cacheWays t.str then
    let s := modPkg s fun p => { p with retired := put p.retired (cacheKey t.str unit) (retiredWays s t.str unit + 1) }
    post (shrinkCache s t.str unit) (.wayRetired t.str t.adr (testClu t) t.cid)
  else modPkg s fun p => { p with deg := true }

/-- MARCH_TEST_COMPLETE: the self-test of a row, which a logged error started, ends: the spare keeps the contents of a faulty
row, and else they return and the spare is free; with no spare, see `noSpare`. Nothing comes of it where no such test is
under way. (R393) (DESIGN CHOICE, log entry 39) -/
def execMarchTestComplete (str adr unit cid : Nat) (faulty repaired : Bool) (s : State) : Out :=
  match s.pkg.tests.find? fun t => t.str == str && t.adr == adr && t.unit == unit && t.cid == cid with
  | none => .next s
  | some t =>
    let s := modPkg s fun p => { p with tests := p.tests.erase t }
    if !t.spare then .next (noSpare s t repaired)
    else if faulty then .next (logAt s (testRec 4 t))
    else .next (logAt (modPkg s fun p => { p with sparesUsed := put p.sparesUsed str (sparesOf s str - 1) }) (testRec 6 t))

/-- Whether a cache holds no line in the ways that it has lost. -/
def retireClear (s : State) (str clu : Nat) : Bool := str != 5 || waysClear s clu

/-- A cache way holds no line any more: it is retired, and the record says so (R393). -/
def execWayRetired (str adr clu cid : Nat) (s : State) : Out := .next (logAt s (errorRec 5 str adr clu cid))

/-! ### Start-up and firmware trust (R394, R395) -/

/-- RESET: the device starts again with calibration; the boot ROM is measured. (R394, R395) -/
def execReset (s : State) : Out :=
  let m := measured 0 Config.bootRom :: List.replicate 7 0
  .next { State.reset with picks := s.picks, fresh := s.fresh, pkg := { Pkg.reset with phase := 1, measures := m } }

/-- R395: whether an image is accepted against a fuse. (DESIGN CHOICE, log entry 37) -/
def accepted (i : Firmware) (fuse : Nat) : Bool := slhDsaVerifies Config.firmwareKey i.bytes i.signature &&
  decide (Config.fuseVersion fuse ≤ i.version)

/-- A measurement register extended by an image. (DESIGN CHOICE, log entry 9) -/
def measure (s : State) (k : Nat) (image : List Byte) : State :=
  modPkg s fun p => { p with measures := p.measures.set k (measured (p.measures.getD k 0) image) }

/-- CALIBRATION_COMPLETE: the links are trained; the controller's firmware and the M-mode image are verified and
measured in turn, and memory initialisation begins; a refused image leaves PHASE 4. (R378, R394, R395)
(DESIGN CHOICE, log entry 9; DESIGN CHOICE, log entry 16; DESIGN CHOICE, log entry 37) -/
def execCalibrationComplete (ctrl mm : Firmware) (cal : List Byte) (l0 : LinkMode) (l1 : MemLink) (s : State) : Out :=
  let fail := fun (s : State) => modPkg s fun p => { p with phase := 4 }
  if s.pkg.phase ≠ 1 then .next s
  else
    let s := modPkg s fun p => { p with link0 := l0, link1 := l1.mode, hdm1 := l1.hdm }
    if !accepted ctrl 0 then .next (fail s)
    else
      let s := measure s 1 ctrl.bytes
      if !accepted mm 1 then .next (fail s)
      else
        let s := measure (measure s 2 mm.bytes) 3 cal
        .next (modPkg s fun p => { p with phase := 2, versions := [ctrl.version, mm.version] })

/-- MEMORY_INIT_COMPLETE: explicit storage and slice tables are zeroed, and READY is set. (R394) -/
def execMemoryInitComplete (s : State) : Out :=
  if s.pkg.phase ≠ 2 then .next s
  else
    let s := { s with mem := s.mem.filter fun c => decide (c.1 < chipBase), poison := s.poison.filter fun a => decide (a < chipBase) }
    .next (modPkg s fun p => { p with phase := 3, ready := true })

/-- ZEROING_COMPLETE: background zeroing of HBM4E completes. (R394) -/
def execZeroingComplete (s : State) : Out :=
  if s.pkg.phase = 2 ∨ s.pkg.phase = 3 then .next (modPkg s fun p => { p with zdone := true }) else .next s

/-- A signature by the device identity key over the words of a report, in byte order (R395). (DESIGN CHOICE, log entry 37) -/
def signed (body : List Word) : Signature :=
  let (sk, prf, seed) := Config.identityKey
  slhDsaSign (leBytes 32 sk.toNat) (leBytes 32 prf.toNat) (leBytes 32 seed.toNat)
    (leBytes 32 (Config.signatureRandom body).toNat) (body.flatMap fun w => leBytes 8 w.toNat)

/-- ATTESTATION_REPORT: a DOE request returns the nonce, serial number, measurements, versions and a signature over
them; a device whose image was refused answers none. (R395) -/
def execAttestationReport (nonce : BitVec 256) (s : State) : Out :=
  let words := fun (n v : Nat) => (List.range n).map fun i => word (v / 2 ^ (64 * i))
  let p := s.pkg
  let body := words 4 nonce.toNat ++ words 2 Config.deviceSerial.toNat ++ p.measures.flatMap (fun m => words 8 m.toNat) ++
    p.versions.map fun v => v.setWidth 64
  let r : Report := { nonce := nonce, serial := Config.deviceSerial, measures := p.measures, versions := p.versions,
                      signature := signed body }
  .next (if p.phase = 4 then s else modPkg s fun p => { p with report := some r })

/-- POWER_LIMIT: the clocks are lowered a step together, and THR is set. (R396) (DESIGN CHOICE, log entry 11) -/
def execPowerLimit (s : State) : Out := .next (modPkg s fun p => { p with thr := true, clockSteps := Nat.min 15 (p.clockSteps + 1) })

/-- THERMAL_SHUTDOWN: the memory-side caches' dirty lines are written back, and the package stops every clock. (R396) -/
def execThermalShutdown (s : State) : Out :=
  .next (modPkg (msFlush s fun _ => true) fun p => { p with stopped := true })

/-! ### What the host reads at BAR0 (R379, R382, R385, R392) -/

/-- The four words of an error record (R392). -/
def errorWords (e : ErrRec) : List Word :=
  [word (e.typ * 2 ^ 60 + e.str * 2 ^ 52 + e.adr % 2 ^ 52), word (e.swid % 2 ^ 32 * 2 ^ 32 + e.slot % 2 ^ 17),
   word (e.clu % 2 ^ 8 * 2 ^ 56 + e.cid % 2 ^ 12), e.time]

/-- A record's place in an error window: the window is a ring of 64, and its newest record is the last copied. -/
def windowRec (v : Vf) (k : Nat) : Option ErrRec :=
  let oldest := v.told - v.window.length
  v.window[(k + 64 - oldest % 64) % 64]?

/-- A word of a doorbell page: TAIL reads as zero; HEAD is a copy of the ring's. -/
def doorbellWord (s : State) (n k : Nat) : Word :=
  let v := vf s n
  match k with
  | 1 => word (((part s v.part).map Part.head).getD 0)
  | 2 => word (v.rerr.toNat * 2 + v.halt.toNat)
  | _ => 0

/-- A word of a virtual function's BAR0, of 8 KiB: its doorbell page, and its error window at 0x1000. -/
def vfWord (s : State) (n k : Nat) : Word :=
  if k < 512 then doorbellWord s n k
  else match windowRec (vf s n) ((k - 512) / 4) with
    | some e => if k < 768 then (errorWords e).getD ((k - 512) % 4) 0 else 0
    | none => 0

/-- A word of the physical function's BAR0, of 32 KiB: halt records at 0x800 + 8 × VF, the mailbox at 0x1000, the import area
at 0x4000; 0x2000 to 0x3FFF read as zero. -/
def pfWord (s : State) (k : Nat) : Word :=
  if k < 256 then 0
  else if k < 320 then (vf s (k - 256)).haltRec
  else if k = 512 then s.pkg.mailCmd
  else if 512 < k ∧ k < 576 then s.pkg.mailArgs.getD (k - 513) 0
  else if k = 576 then s.pkg.mailbox
  else if 2048 ≤ k ∧ k < 4096 then s.pkg.importArea.getD (k - 2048) 0
  else 0

/-- The doubleword that a host read of BAR0 returns, by link, function and offset: function 0 of link 0 is the physical
function; link 1's memory-only function reads as zero (R379). -/
def bar0Word (s : State) (link fn off : Nat) : Word :=
  if link ≠ 0 then 0 else if fn = 0 then pfWord s (off / 8) else vfWord s fn (off / 8)

end Sys2Proof.Machine
end

