-- ==== Sys2Proof/Machine/Scalar.lean ====
section
/-! DEFINITION. Scalar instructions of majors 0x01 to 0x0C (spec/12_isa_scalar.md R189 to R198). -/

namespace Sys2Proof.Machine

/-- R190: an operation on two sources. -/
def binary (f : Word → Word → Word) (d a b : Reg) : Act Flow := do
  checkOps [.src a, .src b, .dst d]
  let x ← src a
  let y ← src b
  dst d (f x y)
  return .seq

/-- R191, R198: a division: its result comes 16 cycles later. -/
def division (f : Word → Word → Word) (d a b : Reg) : Act Flow := do
  checkOps [.src a, .src b, .dst d]
  let x ← src a
  let y ← src b
  if d.toNat < 112 then lateResult (some (d.toNat, f x y)) none
  return .seq

/-- R192, R194 to R197: an operation on one source. -/
def unary (f : Word → Word) (d a : Reg) : Act Flow := do
  checkOps [.src a, .dst d]
  let x ← src a
  dst d (f x)
  return .seq

/-- ADD: the sum. (R190) -/
def execAdd (d a b : Reg) (s : State) : Out := issue (binary (fun x y => x + y) d a b) s

/-- SUB: the difference. (R190) -/
def execSub (d a b : Reg) (s : State) : Out := issue (binary (fun x y => x - y) d a b) s

/-- MUL: the low half of the product. (R190) -/
def execMul (d a b : Reg) (s : State) : Out := issue (binary (fun x y => x * y) d a b) s

/-- MULH: the high half, both signed. (R190) -/
def execMulh (d a b : Reg) (s : State) : Out := issue (binary (fun x y => wordInt (mulHigh x.toInt y.toInt 64)) d a b) s

/-- MULHU: the high half, both unsigned. (R190) -/
def execMulhu (d a b : Reg) (s : State) : Out := issue (binary (fun x y => wordInt (mulHigh x.toNat y.toNat 64)) d a b) s

/-- MULHSU: the high half, signed by unsigned. (R190) -/
def execMulhsu (d a b : Reg) (s : State) : Out := issue (binary (fun x y => wordInt (mulHigh x.toInt y.toNat 64)) d a b) s

/-- DIV: the signed quotient. (R191) -/
def execDiv (d a b : Reg) (s : State) : Out := issue (division divS d a b) s

/-- DIVU: the unsigned quotient. (R191) -/
def execDivu (d a b : Reg) (s : State) : Out := issue (division divU d a b) s

/-- REM: the signed remainder. (R191) -/
def execRem (d a b : Reg) (s : State) : Out := issue (division remS d a b) s

/-- REMU: the unsigned remainder. (R191) -/
def execRemu (d a b : Reg) (s : State) : Out := issue (division remU d a b) s

/-- AND: bitwise and. (R190) -/
def execAnd (d a b : Reg) (s : State) : Out := issue (binary (fun x y => x &&& y) d a b) s

/-- OR: bitwise or. (R190) -/
def execOr (d a b : Reg) (s : State) : Out := issue (binary (fun x y => x ||| y) d a b) s

/-- XOR: bitwise exclusive or. (R190) -/
def execXor (d a b : Reg) (s : State) : Out := issue (binary (fun x y => x ^^^ y) d a b) s

/-- ANDN: s AND NOT t. (R190) -/
def execAndn (d a b : Reg) (s : State) : Out := issue (binary (fun x y => x &&& ~~~ y) d a b) s

/-- ORN: s OR NOT t. (R190) -/
def execOrn (d a b : Reg) (s : State) : Out := issue (binary (fun x y => x ||| ~~~ y) d a b) s

/-- XNOR: NOT (s XOR t). (R190) -/
def execXnor (d a b : Reg) (s : State) : Out := issue (binary (fun x y => ~~~ (x ^^^ y)) d a b) s

/-- SHL: shift left by t[5:0]. (R190) -/
def execShl (d a b : Reg) (s : State) : Out := issue (binary (fun x y => x <<< amount y) d a b) s

/-- SHR: shift right with zeros. (R190) -/
def execShr (d a b : Reg) (s : State) : Out := issue (binary (fun x y => x >>> amount y) d a b) s

/-- SRA: shift right with copies of bit 63. (R190) -/
def execSra (d a b : Reg) (s : State) : Out := issue (binary (fun x y => x.sshiftRight (amount y)) d a b) s

/-- ROL: rotate left. (R190) -/
def execRol (d a b : Reg) (s : State) : Out := issue (binary (fun x y => x.rotateLeft (amount y)) d a b) s

/-- ROR: rotate right. (R190) -/
def execRor (d a b : Reg) (s : State) : Out := issue (binary (fun x y => x.rotateRight (amount y)) d a b) s

/-- MIN: the smaller, signed. (R190) -/
def execMin (d a b : Reg) (s : State) : Out := issue (binary minS d a b) s

/-- MAX: the larger, signed. (R190) -/
def execMax (d a b : Reg) (s : State) : Out := issue (binary maxS d a b) s

/-- MINU: the smaller, unsigned. (R190) -/
def execMinu (d a b : Reg) (s : State) : Out := issue (binary minU d a b) s

/-- MAXU: the larger, unsigned. (R190) -/
def execMaxu (d a b : Reg) (s : State) : Out := issue (binary maxU d a b) s

/-- SEQ: 1 if equal. (R190) -/
def execSeq (d a b : Reg) (s : State) : Out := issue (binary (fun x y => truth (x == y)) d a b) s

/-- SNE: 1 if different. (R190) -/
def execSne (d a b : Reg) (s : State) : Out := issue (binary (fun x y => truth (x != y)) d a b) s

/-- SLT: 1 if less, signed. (R190) -/
def execSlt (d a b : Reg) (s : State) : Out := issue (binary (fun x y => truth (x.slt y)) d a b) s

/-- SLTU: 1 if less, unsigned. (R190) -/
def execSltu (d a b : Reg) (s : State) : Out := issue (binary (fun x y => truth (x.ult y)) d a b) s

/-- SLE: 1 if less or equal, signed. (R190) -/
def execSle (d a b : Reg) (s : State) : Out := issue (binary (fun x y => truth (x.sle y)) d a b) s

/-- SLEU: 1 if less or equal, unsigned. (R190) -/
def execSleu (d a b : Reg) (s : State) : Out := issue (binary (fun x y => truth (x.ule y)) d a b) s

/-- SEL: the first source if x[d] is not 0, else the second. (R190) -/
def execSel (d a b : Reg) (s : State) : Out :=
  issue (do
    checkOps [.src a, .src b, .both d]
    let x ← src a
    let y ← src b
    let c ← src d
    dst d (if c ≠ 0 then x else y)
    return .seq) s

/-- CLZ: zero bits above the highest set bit. (R192) -/
def execClz (d a : Reg) (s : State) : Out := issue (unary (fun x => word (clzFrom x 64)) d a) s

/-- CTZ: zero bits below the lowest set bit. (R192) -/
def execCtz (d a : Reg) (s : State) : Out := issue (unary (fun x => word (ctzFrom x 64 0)) d a) s

/-- POPC: set bits. (R192) -/
def execPopc (d a : Reg) (s : State) : Out := issue (unary (fun x => word (popcFrom x 64)) d a) s

/-- BREV: bits reversed. (R192) -/
def execBrev (d a : Reg) (s : State) : Out := issue (unary (fun x => word (brevFrom x 64)) d a) s

/-- BSWAP: bytes reversed. (R192) -/
def execBswap (d a : Reg) (s : State) : Out := issue (unary bswap64 d a) s

/-- SEXTB: the low byte, sign-extended. (R192) -/
def execSextb (d a : Reg) (s : State) : Out := issue (unary (fun x => sextN 8 x.toNat) d a) s

/-- SEXTH: the low halfword, sign-extended. (R192) -/
def execSexth (d a : Reg) (s : State) : Out := issue (unary (fun x => sextN 16 x.toNat) d a) s

/-- SEXTW: the low word, sign-extended. (R192) -/
def execSextw (d a : Reg) (s : State) : Out := issue (unary (fun x => sextN 32 x.toNat) d a) s

/-- ZEXTB: the low byte, zero-extended. (R192) -/
def execZextb (d a : Reg) (s : State) : Out := issue (unary (fun x => bitField x 0 8) d a) s

/-- ZEXTH: the low halfword, zero-extended. (R192) -/
def execZexth (d a : Reg) (s : State) : Out := issue (unary (fun x => bitField x 0 16) d a) s

/-- ZEXTW: the low word, zero-extended. (R192) -/
def execZextw (d a : Reg) (s : State) : Out := issue (unary (fun x => bitField x 0 32) d a) s

/-- HASH: the fixed mix of two words. (R193) -/
def execHash (d a b : Reg) (s : State) : Out := issue (binary hash64 d a b) s

/-- ADDI: s + k. (R194) -/
def execAddi (d a : Reg) (i : BitVec 12) (s : State) : Out :=
  issue (unary (fun x => let k := i.signExtend 64; x + k) d a) s

/-- ANDI: s AND k. (R194) -/
def execAndi (d a : Reg) (i : BitVec 12) (s : State) : Out :=
  issue (unary (fun x => let k := i.signExtend 64; x &&& k) d a) s

/-- ORI: s OR k. (R194) -/
def execOri (d a : Reg) (i : BitVec 12) (s : State) : Out :=
  issue (unary (fun x => let k := i.signExtend 64; x ||| k) d a) s

/-- XORI: s XOR k. (R194) -/
def execXori (d a : Reg) (i : BitVec 12) (s : State) : Out :=
  issue (unary (fun x => let k := i.signExtend 64; x ^^^ k) d a) s

/-- SLTI: 1 if s < k, signed. (R194) -/
def execSlti (d a : Reg) (i : BitVec 12) (s : State) : Out :=
  issue (unary (fun x => let k := i.signExtend 64; truth (x.slt k)) d a) s

/-- SLTIU: 1 if s < k, unsigned. (R194) -/
def execSltiu (d a : Reg) (i : BitVec 12) (s : State) : Out :=
  issue (unary (fun x => let k := i.signExtend 64; truth (x.ult k)) d a) s

/-- SHLI: shift left by a constant. (R195) -/
def execShli (d a : Reg) (k : BitVec 6) (s : State) : Out := issue (unary (fun x => x <<< k.toNat) d a) s

/-- SHRI: shift right with zeros by a constant. (R195) -/
def execShri (d a : Reg) (k : BitVec 6) (s : State) : Out := issue (unary (fun x => x >>> k.toNat) d a) s

/-- SRAI: arithmetic shift right by a constant. (R195) -/
def execSrai (d a : Reg) (k : BitVec 6) (s : State) : Out := issue (unary (fun x => x.sshiftRight k.toNat) d a) s

/-- RORI: rotate right by a constant. (R195) -/
def execRori (d a : Reg) (k : BitVec 6) (s : State) : Out := issue (unary (fun x => x.rotateRight k.toNat) d a) s

/-- MOVI: a sign-extended 19-bit constant. (R196) -/
def execMovi (d : Reg) (i : BitVec 19) (s : State) : Out :=
  issue (do
    checkOps [.dst d]
    dst d (i.signExtend 64)
    return .seq) s

/-- MOVH: one 16-bit quarter replaced. (R196) -/
def execMovh (d : Reg) (q : BitVec 2) (v : BitVec 16) (s : State) : Out :=
  issue (do
    checkOps [.both d]
    let c ← src d
    dst d (setQuarter c q.toNat v)
    return .seq) s

/-- BFX: a bit field of w + 1 bits at p, zero-extended. (R197) -/
def execBfx (d a : Reg) (p : BitVec 6) (w : BitVec 5) (s : State) : Out :=
  issue (unary (fun x => bitField x p.toNat (w.toNat + 1)) d a) s

/-- BFI: the low w + 1 bits of the source put at p. (R197) -/
def execBfi (d a : Reg) (p : BitVec 6) (w : BitVec 5) (s : State) : Out :=
  issue (do
    checkOps [.src a, .both d]
    let x ← src a
    let c ← src d
    dst d (insertField c x p.toNat (w.toNat + 1))
    return .seq) s

end Sys2Proof.Machine
end

