-- ==== Sys2Proof/Machine/Vector.lean ====
section
/-! DEFINITION. Vector instructions (spec/15_isa_vector.md R236 to R250). -/

namespace Sys2Proof.Machine

/-! ### Lanes -/

/-- The active lanes of an instruction (R237). -/
def active (t : Thread) (p : Bool) : List Nat := (List.range 16).filter fun l => !p || t.vp.getLsbD l

/-- The rounding mode of `TS.VRM` (R228). -/
def vrm (t : Thread) : Rm := rmOf t.vrm.toNat

/-- A vector result: to the thread's next instruction, or 8 cycles after issue (R182). -/
def deliverV (late : Bool) (d : Reg) (ls : List (Nat × Lane)) : Act Unit :=
  if late then lateResult none (some (d.toNat, ls)) else setV d ls

/-- A lane-by-lane function of two vector registers, of the destination's old lane and of the rounding mode. -/
def vec2 (late : Bool) (f : Rm → Lane → Lane → Lane → Lane) (d a b : Reg) (p : Bool) : Act Flow := do
  checkOps [.vec a, .vec b, .vec d]
  let x ← vreg a
  let y ← vreg b
  let z ← vreg d
  let t ← me
  deliverV late d ((active t p).map fun l => (l, f (vrm t) (x.getD l 0) (y.getD l 0) (z.getD l 0)))
  return .seq

/-- A lane-by-lane function of one vector register and the destination's old lane. -/
def vec1 (late : Bool) (f : Lane → Lane → Lane) (d a : Reg) (p : Bool) : Act Flow := do
  checkOps [.vec a, .vec d]
  let x ← vreg a
  let z ← vreg d
  let t ← me
  deliverV late d ((active t p).map fun l => (l, f (x.getD l 0) (z.getD l 0)))
  return .seq

/-! ### Elements of a lane -/

/-- Major 0x30: each lane an INT32. -/
def i32 (f : Lane → Lane → Lane) : Rm → Lane → Lane → Lane → Lane := fun _ x y _ => f x y

/-- Major 0x31: each byte of the lanes. -/
def i8x4 (f : Byte → Byte → Byte) : Rm → Lane → Lane → Lane → Lane := fun _ x y _ => perByte f x y

/-- The sum of the products of the bytes of two lanes, the second's read as given (R238). -/
def dot4 (g : Byte → Int) (x y : Lane) : Int :=
  (List.zipWith (fun (a b : Byte) => a.toInt * g b) (bytesOfLane x) (bytesOfLane y)).foldl (· + ·) 0

/-- A lane's FP32 operation on encodings. -/
def f32 (f : Rm → Nat → Nat → Nat → Nat) : Rm → Lane → Lane → Lane → Lane :=
  fun r x y z => BitVec.ofNat 32 (f r x.toNat y.toNat z.toNat)

/-- A half of a lane: h0 or h1 (R226). -/
def half (x : Lane) (h : Nat) : Nat := x.toNat / 2 ^ (16 * h) % 2 ^ 16

/-- An operation on encodings applied to the two BF16 halves of lanes (R240). -/
def bf16x2 (f : Rm → Nat → Nat → Nat → Nat) : Rm → Lane → Lane → Lane → Lane :=
  fun r x y z =>
    BitVec.ofNat 32 (f r (half x 0) (half y 0) (half z 0) + 2 ^ 16 * f r (half x 1) (half y 1) (half z 1))

/-- VDOT2's lane: d + a0 * b0 + a1 * b1 exactly, rounded once (R240). -/
def dot2 (r : Rm) (x y z : Nat) : Nat :=
  let h := fun (v k : Nat) => Flt.bf16.read (v / 2 ^ (16 * k) % 2 ^ 16)
  Flt.f32.round r (((Flt.f32.read z).add r ((h x 0).mul (h y 0))).add r ((h x 1).mul (h y 1)))

/-- A byte of a lane: b0 to b3 (R226). -/
def byteOf (x : Lane) (k : Nat) : Nat := x.toNat / 2 ^ (8 * k) % 2 ^ 8

/-- A lane with n bits at a place replaced. -/
def patch (z : Lane) (pos n v : Nat) : Lane :=
  BitVec.ofNat 32 (z.toNat - z.toNat / 2 ^ pos % 2 ^ n * 2 ^ pos + v % 2 ^ n * 2 ^ pos)

/-- An integer as an FP32 encoding (R230). -/
def intToF32 (r : Rm) (i : Int) : Nat := Flt.f32.round r (Num.ofInt i)

/-- VABS and VNEG: the sign bit changed of a number; the canonical NaN of a NaN (R239). -/
def signOp (f : Nat → Nat) (x : Lane) : Lane :=
  BitVec.ofNat 32 (if (Flt.f32.read x.toNat).isNan then Flt.f32.nan else f x.toNat)

/-! ### Vector memory (R244 to R246) -/

/-- The effective offsets of the lanes. -/
abbrev Offsets := List Word

/-- R244: the checks of every active lane, in order; the accesses that they name. -/
def laneRefs (sg : BitVec 3) (c : Cls) (base : Word) (eos : Offsets) (ls : List Nat) : Act (List Ref) := do
  let s ← get
  let t := self s
  let eo := fun (l : Nat) => eos.getD l 0
  let bad := match ls with
    | [] => (addrTrap s t sg.toNat c base 0 1).filter fun p => p.1 != 0x14
    | _ => ls.findSome? fun l => addrTrap s t sg.toNat c (eo l) 4 4
  match bad with
  | some (code, v) => trap code v
  | none => return ls.map fun l => { refAt t sg.toNat (eo l) 4 with lanes := [(l, 0, eo l)] }

/-- The accesses of GLOB lanes: those forwarded from the thread's own buffer one by one, the others one access for each
line (R245). -/
def lineRefs (rs : List Ref) : List Ref :=
  let lines := (rs.map fun r => r.addr / 128).eraseDups
  lines.map fun n =>
    let g := rs.filter fun r => r.addr / 128 == n
    let lo := g.foldl (fun m r => Nat.min m r.addr) (128 * n + 124)
    let hi := g.foldl (fun m r => Nat.max m r.addr) (128 * n)
    { kind := .glob, tgt := 0, addr := lo, size := hi + 4 - lo,
      lanes := g.flatMap fun r => r.lanes.map fun l => (l.1, r.addr - lo, l.2.2) }

/-- The pieces of a GLOB vector load. -/
def globPieces (rs : List Ref) : Act (List Piece) := do
  let s ← get
  if rs.any fun r => forward s s.cur r == .blocked then hold
  if rs.any (vecPending (self s)) then hold
  let own := rs.filter fun r => forward s s.cur r != .none
  let ps ← loadPieces own
  let far := (lineRefs (rs.filter fun r => forward s s.cur r == .none)).zipIdx
  let s ← get
  let one := fun (p : Ref × Nat) =>
    let a := access s (.load s.cur) p.1 (.read p.1.size) .th
    let piece : Piece := { acc := { a with tx := s.nextTx + p.2 }, lanes := p.1.lanes, reply := none, fixed := false, near := true }
    piece
  set { s with nextTx := s.nextTx + far.length }
  return ps ++ far.map one

/-- R245: a vector load. -/
def vload (d : Reg) (rs : List Ref) (va : Nat) (k : Kind) : Act Unit := do
  loadGate (.v d.toNat)
  let ps ← if k = .glob then globPieces rs else loadPieces rs
  sendLoad (.v d.toNat) va ps false

/-- The words that a vector store leaves, the higher lane's standing where two write one word, by rising address. -/
def lastWords (ws : List (Nat × Word)) : NMap Word := ws.foldl (fun m w => put m w.1 w.2) []

/-- R245: a vector store. -/
def vstore (rs : List (Ref × Lane)) (k : Kind) : Act Unit := do
  afterAcquire
  if atIssue k then rs.forM fun r => storeNow r.1 (leBytes 4 r.2.toNat)
  else
    let s ← get
    if rs.any fun r => loadPending (self s) r.1 then hold
    let ws := lastWords (rs.map fun r => (r.1.addr, r.2.setWidth 64))
    let lines := (ws.map fun w => w.1 / 128).eraseDups
    bufferStores (lines.map fun n =>
      { slot := s.cur, kind := k, tgt := 0, words := (ws.filter fun w => w.1 / 128 == n).map fun w => (w.1, 4, w.2), flush := false })

/-- The kind of a segment of the issuing thread. -/
def segKind (sg : BitVec 3) : Act Kind := do return (segOf (← me) sg.toNat).kind

/-- A vector load or store with offsets from a function of the base. -/
def vecMem (ld : Bool) (us : List Use) (d a : Reg) (sg : BitVec 3) (p : Bool) (offs : Act (Word → Nat → Word)) : Act Flow := do
  checkOps (.src a :: us ++ [.vec d])
  let x ← src a
  let f ← offs
  let t ← me
  let ls := active t p
  let rs ← laneRefs sg (if ld then .vload else .vstore) x ((List.range 16).map (f x)) ls
  let k ← segKind sg
  if ld then vload d rs ((rs.head?.map Ref.addr).getD 0) k
  else
    let v ← vreg d
    vstore (rs.map fun r => (r, (r.lanes.head?.map fun l => v.getD l.1 0).getD 0)) k
  return .seq

/-- Offsets of 16 consecutive words (R244). -/
def unitOffs : Act (Word → Nat → Word) := return fun x l => x + word (4 * l)
/-- Offsets of an index vector (R244). -/
def indexOffs (i : BitVec 4) : Act (Word → Nat → Word) := do
  let v ← vreg (i.setWidth 7)
  return fun x l => x + (v.getD l 0).signExtend 64

/-! ### Reductions and scans (R248) -/

/-- One level of the tree: neighbours combined, an empty one leaving the other. -/
def level (f : Lane → Lane → Lane) : List (Option Lane) → List (Option Lane)
  | x :: y :: rest =>
    (match x, y with
      | some p, some q => some (f p q)
      | some p, none => some p
      | none, q => q) :: level f rest
  | l => l

/-- R248: the fixed tree over sixteen lanes. -/
def treeReduce (f : Lane → Lane → Lane) (unit : Lane) (x : List (Option Lane)) : Lane :=
  match level f (level f (level f (level f x))) with
  | some v :: _ => v
  | _ => unit

/-- A reduction into a scalar register, 8 cycles after issue. -/
def reduce (f : Rm → Lane → Lane → Lane) (unit : Lane) (ext : Lane → Word) (d a : Reg) (p : Bool) : Act Flow := do
  checkOps [.vec a, .dst d]
  let x ← vreg a
  let t ← me
  let ls := active t p
  let v := treeReduce (f (vrm t)) unit ((List.range 16).map fun l => if ls.contains l then x[l]? else none)
  if d.toNat < 112 then lateResult (some (d.toNat, ext v)) none
  return .seq

/-- The prefixes of a list of lanes. -/
def prefixes (f : Lane → Lane → Lane) : Option Lane → List (Nat × Lane) → List (Nat × Lane)
  | _, [] => []
  | none, (l, v) :: rest => (l, v) :: prefixes f (some v) rest
  | some acc, (l, v) :: rest => (l, f acc v) :: prefixes f (some (f acc v)) rest

/-- An inclusive prefix over the active lanes. -/
def vscan (f : Rm → Lane → Lane → Lane) (d a : Reg) (p : Bool) : Act Flow := do
  checkOps [.vec a, .vec d]
  let x ← vreg a
  let t ← me
  deliverV true d (prefixes (f (vrm t)) none ((active t p).map fun l => (l, x.getD l 0)))
  return .seq

/-- A lane sum in FP32. -/
def f32Sum (r : Rm) (x y : Lane) : Lane := BitVec.ofNat 32 (Flt.f32.sum r x.toNat y.toNat)
/-- A lane maximum in FP32. -/
def f32Max (x y : Lane) : Lane := BitVec.ofNat 32 (Flt.f32.most x.toNat y.toNat)

/-! ### Compares (R249) -/

/-- R249: a compare of every lane into the predicate. -/
def compareV (f : Lane → Lane → Bool) (a b : Reg) (p : Bool) : Act Flow := do
  checkOps [.vec a, .vec b]
  let x ← vreg a
  let y ← vreg b
  let bits : BitVec 16 := (List.range 16).foldl (fun m l =>
    if f (x.getD l 0) (y.getD l 0) then m ||| BitVec.ofNat 16 (2 ^ l) else m) 0
  setMe fun t => { t with vp := if p then t.vp &&& bits else bits }
  return .seq

/-- A comparison of two lanes read as FP32. -/
def f32Cmp (f : Num → Num → Bool) (x y : Lane) : Bool := f (Flt.f32.read x.toNat) (Flt.f32.read y.toNat)

/-! ### The instructions -/

/-- VADD.i32: a + b, wrapping. (R238) -/
def execVaddI32 (d a b : Reg) (p : Bool) (s : State) : Out := issue (vec2 false (i32 (fun x y => x + y)) d a b p) s

/-- VSUB.i32: a - b, wrapping. (R238) -/
def execVsubI32 (d a b : Reg) (p : Bool) (s : State) : Out := issue (vec2 false (i32 (fun x y => x - y)) d a b p) s

/-- VMUL.i32: the low half of the product. (R238) -/
def execVmulI32 (d a b : Reg) (p : Bool) (s : State) : Out := issue (vec2 false (i32 (fun x y => x * y)) d a b p) s

/-- VMULH.i32: the high half of the signed product. (R238) -/
def execVmulhI32 (d a b : Reg) (p : Bool) (s : State) : Out := issue (vec2 false (i32 (fun x y => BitVec.ofInt 32 (mulHigh x.toInt y.toInt 32))) d a b p) s

/-- VMIN.i32: the signed minimum. (R238) -/
def execVminI32 (d a b : Reg) (p : Bool) (s : State) : Out := issue (vec2 false (i32 minS) d a b p) s

/-- VMAX.i32: the signed maximum. (R238) -/
def execVmaxI32 (d a b : Reg) (p : Bool) (s : State) : Out := issue (vec2 false (i32 maxS) d a b p) s

/-- VMINU.i32: the unsigned minimum. (R238) -/
def execVminuI32 (d a b : Reg) (p : Bool) (s : State) : Out := issue (vec2 false (i32 minU) d a b p) s

/-- VMAXU.i32: the unsigned maximum. (R238) -/
def execVmaxuI32 (d a b : Reg) (p : Bool) (s : State) : Out := issue (vec2 false (i32 maxU) d a b p) s

/-- VAND.i32: bitwise AND. (R238) -/
def execVandI32 (d a b : Reg) (p : Bool) (s : State) : Out := issue (vec2 false (i32 (fun x y => x &&& y)) d a b p) s

/-- VOR.i32: bitwise OR. (R238) -/
def execVorI32 (d a b : Reg) (p : Bool) (s : State) : Out := issue (vec2 false (i32 (fun x y => x ||| y)) d a b p) s

/-- VXOR.i32: bitwise exclusive OR. (R238) -/
def execVxorI32 (d a b : Reg) (p : Bool) (s : State) : Out := issue (vec2 false (i32 (fun x y => x ^^^ y)) d a b p) s

/-- VSHL.i32: a shifted left by bits 4 to 0 of b. (R238) -/
def execVshlI32 (d a b : Reg) (p : Bool) (s : State) : Out := issue (vec2 false (i32 (fun x y => x <<< (y.toNat % 32))) d a b p) s

/-- VSHR.i32: a shifted right, zeros in. (R238) -/
def execVshrI32 (d a b : Reg) (p : Bool) (s : State) : Out := issue (vec2 false (i32 (fun x y => x >>> (y.toNat % 32))) d a b p) s

/-- VSRA.i32: a shifted right, copies of bit 31 in. (R238) -/
def execVsraI32 (d a b : Reg) (p : Bool) (s : State) : Out := issue (vec2 false (i32 (fun x y => x.sshiftRight (y.toNat % 32))) d a b p) s

/-- VADDS.i32: a + b, clamped. (R238) -/
def execVaddsI32 (d a b : Reg) (p : Bool) (s : State) : Out := issue (vec2 false (i32 satAdd) d a b p) s

/-- VSUBS.i32: a - b, clamped. (R238) -/
def execVsubsI32 (d a b : Reg) (p : Bool) (s : State) : Out := issue (vec2 false (i32 satSub) d a b p) s

/-- VADD.i8x4: a + b per byte, wrapping. (R238) -/
def execVaddI8x4 (d a b : Reg) (p : Bool) (s : State) : Out := issue (vec2 false (i8x4 (fun x y => x + y)) d a b p) s

/-- VSUB.i8x4: a - b per byte, wrapping. (R238) -/
def execVsubI8x4 (d a b : Reg) (p : Bool) (s : State) : Out := issue (vec2 false (i8x4 (fun x y => x - y)) d a b p) s

/-- VADDS.i8x4: a + b per byte, clamped. (R238) -/
def execVaddsI8x4 (d a b : Reg) (p : Bool) (s : State) : Out := issue (vec2 false (i8x4 satAdd) d a b p) s

/-- VSUBS.i8x4: a - b per byte, clamped. (R238) -/
def execVsubsI8x4 (d a b : Reg) (p : Bool) (s : State) : Out := issue (vec2 false (i8x4 satSub) d a b p) s

/-- VMIN.i8x4: the signed minimum per byte. (R238) -/
def execVminI8x4 (d a b : Reg) (p : Bool) (s : State) : Out := issue (vec2 false (i8x4 minS) d a b p) s

/-- VMAX.i8x4: the signed maximum per byte. (R238) -/
def execVmaxI8x4 (d a b : Reg) (p : Bool) (s : State) : Out := issue (vec2 false (i8x4 maxS) d a b p) s

/-- VMINU.i8x4: the unsigned minimum per byte. (R238) -/
def execVminuI8x4 (d a b : Reg) (p : Bool) (s : State) : Out := issue (vec2 false (i8x4 minU) d a b p) s

/-- VMAXU.i8x4: the unsigned maximum per byte. (R238) -/
def execVmaxuI8x4 (d a b : Reg) (p : Bool) (s : State) : Out := issue (vec2 false (i8x4 maxU) d a b p) s

/-- VDOT4: d plus the sum of the products of signed bytes, wrapping. (R238) -/
def execVdot4 (d a b : Reg) (p : Bool) (s : State) : Out := issue (vec2 false (fun _ x y z => z + BitVec.ofInt 32 (dot4 (fun w => w.toInt) x y)) d a b p) s

/-- VDOT4SU: as VDOT4, the bytes of b unsigned. (R238) -/
def execVdot4su (d a b : Reg) (p : Bool) (s : State) : Out := issue (vec2 false (fun _ x y z => z + BitVec.ofInt 32 (dot4 (fun w => (w.toNat : Int)) x y)) d a b p) s

/-- VABSD.i8x4: the distance of the signed bytes, unsigned. (R238) -/
def execVabsdI8x4 (d a b : Reg) (p : Bool) (s : State) : Out := issue (vec2 false (i8x4 fun x y => BitVec.ofInt 8 ((x.toInt - y.toInt).natAbs : Int)) d a b p) s

/-- VAVG.i8x4: the average of the signed bytes, rounded up. (R238) -/
def execVavgI8x4 (d a b : Reg) (p : Bool) (s : State) : Out := issue (vec2 false (i8x4 fun x y => BitVec.ofInt 8 ((x.toInt + y.toInt + 1) / 2)) d a b p) s

/-- VADD.bf16x2: a + b, rounded once. (R239, R240) -/
def execVaddBf16x2 (d a b : Reg) (p : Bool) (s : State) : Out := issue (vec2 true (bf16x2 fun r x y _ => Flt.bf16.sum r x y) d a b p) s

/-- VSUB.bf16x2: a - b, rounded once. (R239, R240) -/
def execVsubBf16x2 (d a b : Reg) (p : Bool) (s : State) : Out := issue (vec2 true (bf16x2 fun r x y _ => Flt.bf16.diff r x y) d a b p) s

/-- VMUL.bf16x2: a * b, rounded once. (R239, R240) -/
def execVmulBf16x2 (d a b : Reg) (p : Bool) (s : State) : Out := issue (vec2 true (bf16x2 fun r x y _ => Flt.bf16.prod r x y) d a b p) s

/-- VFMA.bf16x2: a * b + d, rounded once. (R239, R240) -/
def execVfmaBf16x2 (d a b : Reg) (p : Bool) (s : State) : Out := issue (vec2 true (bf16x2 fun r x y z => Flt.bf16.fma r x y z) d a b p) s

/-- VMIN.bf16x2: the minimum, -0 below +0. (R239, R240) -/
def execVminBf16x2 (d a b : Reg) (p : Bool) (s : State) : Out := issue (vec2 true (bf16x2 fun _ x y _ => Flt.bf16.least x y) d a b p) s

/-- VMAX.bf16x2: the maximum, -0 below +0. (R239, R240) -/
def execVmaxBf16x2 (d a b : Reg) (p : Bool) (s : State) : Out := issue (vec2 true (bf16x2 fun _ x y _ => Flt.bf16.most x y) d a b p) s

/-- VADD.f32: a + b, rounded once. (R239, R241) -/
def execVaddF32 (d a b : Reg) (p : Bool) (s : State) : Out := issue (vec2 true (f32 fun r x y _ => Flt.f32.sum r x y) d a b p) s

/-- VSUB.f32: a - b, rounded once. (R239, R241) -/
def execVsubF32 (d a b : Reg) (p : Bool) (s : State) : Out := issue (vec2 true (f32 fun r x y _ => Flt.f32.diff r x y) d a b p) s

/-- VMUL.f32: a * b, rounded once. (R239, R241) -/
def execVmulF32 (d a b : Reg) (p : Bool) (s : State) : Out := issue (vec2 true (f32 fun r x y _ => Flt.f32.prod r x y) d a b p) s

/-- VFMA.f32: a * b + d, rounded once. (R239, R241) -/
def execVfmaF32 (d a b : Reg) (p : Bool) (s : State) : Out := issue (vec2 true (f32 fun r x y z => Flt.f32.fma r x y z) d a b p) s

/-- VFMS.f32: d - a * b, rounded once. (R239, R241) -/
def execVfmsF32 (d a b : Reg) (p : Bool) (s : State) : Out := issue (vec2 true (f32 fun r x y z => Flt.f32.fms r x y z) d a b p) s

/-- VMIN.f32: the minimum, -0 below +0. (R239, R241) -/
def execVminF32 (d a b : Reg) (p : Bool) (s : State) : Out := issue (vec2 true (f32 fun _ x y _ => Flt.f32.least x y) d a b p) s

/-- VMAX.f32: the maximum, -0 below +0. (R239, R241) -/
def execVmaxF32 (d a b : Reg) (p : Bool) (s : State) : Out := issue (vec2 true (f32 fun _ x y _ => Flt.f32.most x y) d a b p) s

/-- VDOT2: d + a0 * b0 + a1 * b1, rounded once to FP32. (R240) -/
def execVdot2 (d a b : Reg) (p : Bool) (s : State) : Out := issue (vec2 true (f32 dot2) d a b p) s

/-- VABS.f32: the sign bit cleared. (R239) -/
def execVabsF32 (d a : Reg) (p : Bool) (s : State) : Out := issue (vec1 true (fun x _ => signOp (fun v => v % 2 ^ 31) x) d a p) s

/-- VNEG.f32: the sign bit inverted. (R239) -/
def execVnegF32 (d a : Reg) (p : Bool) (s : State) : Out := issue (vec1 true (fun x _ => signOp (fun v => (v + 2 ^ 31) % 2 ^ 32) x) d a p) s

/-- FRCPA: 1/a, truncated to 12 significant bits. (R242) -/
def execFrcpa (d a : Reg) (p : Bool) (s : State) : Out := issue (vec1 true (fun x _ => BitVec.ofNat 32 (recip x.toNat)) d a p) s

/-- FRSQA: 1/sqrt a, truncated to 12 significant bits. (R242) -/
def execFrsqa (d a : Reg) (p : Bool) (s : State) : Out := issue (vec1 true (fun x _ => BitVec.ofNat 32 (recipSqrt x.toNat)) d a p) s

/-- FEXP2A: 2^a, truncated to 12 significant bits. (R242) -/
def execFexp2a (d a : Reg) (p : Bool) (s : State) : Out := issue (vec1 true (fun x _ => BitVec.ofNat 32 (exp2 x.toNat)) d a p) s

/-- VCVT.f32.i32: INT32 to FP32. (R230, R243) -/
def execVcvtF32I32 (d a : Reg) (r : Rm) (p : Bool) (s : State) : Out := issue (vec1 true (fun x _ => BitVec.ofNat 32 (intToF32 r x.toInt)) d a p) s

/-- VCVT.i32.f32: FP32 to INT32, clamped. (R230, R243) -/
def execVcvtI32F32 (d a : Reg) (r : Rm) (p : Bool) (s : State) : Out := issue (vec1 true (fun x _ => BitVec.ofInt 32 ((Flt.f32.read x.toNat).toInt r 32)) d a p) s

/-- VCVT.f32.bf16: a BF16 half to FP32. (R230, R243) -/
def execVcvtF32Bf16 (d a : Reg) (h : BitVec 1) (p : Bool) (s : State) : Out := issue (vec1 true (fun x _ => BitVec.ofNat 32 (Flt.convert .bf16 .f32 .rne (half x h.toNat))) d a p) s

/-- VCVT.bf16.f32: FP32 into a BF16 half. (R230, R243) -/
def execVcvtBf16F32 (d a : Reg) (h : BitVec 1) (r : Rm) (p : Bool) (s : State) : Out := issue (vec1 true (fun x z => patch z (16 * h.toNat) 16 (Flt.convert .f32 .bf16 r x.toNat)) d a p) s

/-- VCVT.f32.e4m3: an E4M3 byte to FP32. (R230, R243) -/
def execVcvtF32E4m3 (d a : Reg) (k : BitVec 2) (p : Bool) (s : State) : Out := issue (vec1 true (fun x _ => BitVec.ofNat 32 (Flt.convert .e4m3 .f32 .rne (byteOf x k.toNat))) d a p) s

/-- VCVT.f32.e5m2: an E5M2 byte to FP32. (R230, R243) -/
def execVcvtF32E5m2 (d a : Reg) (k : BitVec 2) (p : Bool) (s : State) : Out := issue (vec1 true (fun x _ => BitVec.ofNat 32 (Flt.convert .e5m2 .f32 .rne (byteOf x k.toNat))) d a p) s

/-- VCVT.e4m3.f32: FP32 into an E4M3 byte. (R230, R243) -/
def execVcvtE4m3F32 (d a : Reg) (k : BitVec 2) (r : Rm) (p : Bool) (s : State) : Out := issue (vec1 true (fun x z => patch z (8 * k.toNat) 8 (Flt.convert .f32 .e4m3 r x.toNat)) d a p) s

/-- VCVT.e5m2.f32: FP32 into an E5M2 byte. (R230, R243) -/
def execVcvtE5m2F32 (d a : Reg) (k : BitVec 2) (r : Rm) (p : Bool) (s : State) : Out := issue (vec1 true (fun x z => patch z (8 * k.toNat) 8 (Flt.convert .f32 .e5m2 r x.toNat)) d a p) s

/-- VCVT.f32.i8: an INT8 byte to FP32. (R230, R243) -/
def execVcvtF32I8 (d a : Reg) (k : BitVec 2) (p : Bool) (s : State) : Out := issue (vec1 true (fun x _ => BitVec.ofNat 32 (intToF32 .rne (BitVec.ofNat 8 (byteOf x k.toNat)).toInt)) d a p) s

/-- VCVT.i8.f32: FP32 into an INT8 byte, clamped. (R230, R243) -/
def execVcvtI8F32 (d a : Reg) (k : BitVec 2) (r : Rm) (p : Bool) (s : State) : Out := issue (vec1 true (fun x z => patch z (8 * k.toNat) 8 (BitVec.ofInt 8 ((Flt.f32.read x.toNat).toInt r 8)).toNat) d a p) s

/-- VLD: loads 16 consecutive words. (R244, R245) -/
def execVld (d a : Reg) (sg : BitVec 3) (p : Bool) (s : State) : Out := issue (vecMem true [] d a sg p unitOffs) s

/-- VST: stores 16 consecutive words. (R244, R245) -/
def execVst (d a : Reg) (sg : BitVec 3) (p : Bool) (s : State) : Out := issue (vecMem false [] d a sg p unitOffs) s

/-- VLDS: loads 16 words spaced by a stride. (R244, R245) -/
def execVlds (d a : Reg) (sg : BitVec 3) (x : BitVec 4) (p : Bool) (s : State) : Out :=
  issue (vecMem true [.src (x.setWidth 7)] d a sg p (do
    let k ← src (x.setWidth 7)
    return fun b l => b + word l * k)) s

/-- VGATH: loads one word for each index. (R244, R245) -/
def execVgath (d a : Reg) (sg : BitVec 3) (i : BitVec 4) (p : Bool) (s : State) : Out := issue (vecMem true [.vec (i.setWidth 7)] d a sg p (indexOffs i)) s

/-- VSCAT: stores one word for each index. (R244, R245) -/
def execVscat (d a : Reg) (sg : BitVec 3) (i : BitVec 4) (p : Bool) (s : State) : Out := issue (vecMem false [.vec (i.setWidth 7)] d a sg p (indexOffs i)) s

/-- VBCAST: a scalar's low word in every active lane. (R247) -/
def execVbcast (d a : Reg) (p : Bool) (s : State) : Out :=
  issue (do
    checkOps [.src a, .vec d]
    let x ← src a
    let t ← me
    setV d ((active t p).map fun l => (l, x.setWidth 32))
    return .seq) s

/-- VEXTR: one lane, sign-extended, to a scalar register. (R247) -/
def execVextr (d a : Reg) (l : BitVec 4) (s : State) : Out :=
  issue (do
    checkOps [.vec a, .dst d]
    let x ← vreg a
    dst d ((x.getD l.toNat 0).signExtend 64)
    return .seq) s

/-- VINS: a scalar's low word into one lane, if it is active. (R247) -/
def execVins (d a : Reg) (l : BitVec 4) (p : Bool) (s : State) : Out :=
  issue (do
    checkOps [.src a, .vec d]
    let x ← src a
    let t ← me
    setV d (((active t p).filter fun k => k == l.toNat).map fun k => (k, x.setWidth 32))
    return .seq) s

/-- VPERM: each lane picks a lane of a by bits 3 to 0 of b's lane. (R247) -/
def execVperm (d a b : Reg) (p : Bool) (s : State) : Out :=
  issue (do
    checkOps [.vec a, .vec b, .vec d]
    let x ← vreg a
    let y ← vreg b
    let t ← me
    setV d ((active t p).map fun l => (l, x.getD ((y.getD l 0).toNat % 16) 0))
    return .seq) s

/-- VROT: lanes rotated. (R247) -/
def execVrot (d a : Reg) (k : BitVec 4) (p : Bool) (s : State) : Out :=
  issue (do
    checkOps [.vec a, .vec d]
    let x ← vreg a
    let t ← me
    setV d ((active t p).map fun l => (l, x.getD ((l + k.toNat) % 16) 0))
    return .seq) s

/-- VREDADD.i32: the wrapping sum of the active lanes. (R248) -/
def execVredaddI32 (d a : Reg) (p : Bool) (s : State) : Out := issue (reduce (fun _ x y => x + y) 0 (fun v => v.signExtend 64) d a p) s

/-- VREDADD.f32: the tree sum of the active lanes. (R248) -/
def execVredaddF32 (d a : Reg) (p : Bool) (s : State) : Out := issue (reduce f32Sum 0 (fun v => v.setWidth 64) d a p) s

/-- VREDMAX.i32: the signed maximum of the active lanes. (R248) -/
def execVredmaxI32 (d a : Reg) (p : Bool) (s : State) : Out := issue (reduce (fun _ x y => maxS x y) 0x80000000#32 (fun v => v.signExtend 64) d a p) s

/-- VREDMAX.f32: the maximum of the active lanes. (R248) -/
def execVredmaxF32 (d a : Reg) (p : Bool) (s : State) : Out := issue (reduce (fun _ x y => f32Max x y) 0xFF800000#32 (fun v => v.setWidth 64) d a p) s

/-- VSCAN.i32: wrapping prefix sums of the active lanes. (R248) -/
def execVscanI32 (d a : Reg) (p : Bool) (s : State) : Out := issue (vscan (fun _ x y => x + y) d a p) s

/-- VSCAN.f32: prefix sums of the active lanes, each step rounded. (R248) -/
def execVscanF32 (d a : Reg) (p : Bool) (s : State) : Out := issue (vscan f32Sum d a p) s

/-- VCMPEQ.i32: equal. (R249) -/
def execVcmpeqI32 (a b : Reg) (p : Bool) (s : State) : Out := issue (compareV (fun x y => x == y) a b p) s

/-- VCMPLT.i32: less, signed. (R249) -/
def execVcmpltI32 (a b : Reg) (p : Bool) (s : State) : Out := issue (compareV (fun x y => x.slt y) a b p) s

/-- VCMPLTU.i32: less, unsigned. (R249) -/
def execVcmpltuI32 (a b : Reg) (p : Bool) (s : State) : Out := issue (compareV (fun x y => x.ult y) a b p) s

/-- VCMPLE.i32: less or equal, signed. (R249) -/
def execVcmpleI32 (a b : Reg) (p : Bool) (s : State) : Out := issue (compareV (fun x y => x.sle y) a b p) s

/-- VCMPEQ.f32: equal. (R249) -/
def execVcmpeqF32 (a b : Reg) (p : Bool) (s : State) : Out := issue (compareV (f32Cmp Num.eq) a b p) s

/-- VCMPLT.f32: less. (R249) -/
def execVcmpltF32 (a b : Reg) (p : Bool) (s : State) : Out := issue (compareV (f32Cmp Num.lt) a b p) s

/-- VCMPLE.f32: less or equal. (R249) -/
def execVcmpleF32 (a b : Reg) (p : Bool) (s : State) : Out := issue (compareV (f32Cmp fun u v => u.lt v || u.eq v) a b p) s

/-- VCMPUN.f32: either is a NaN. (R249) -/
def execVcmpunF32 (a b : Reg) (p : Bool) (s : State) : Out := issue (compareV (f32Cmp fun u v => u.isNan || v.isNan) a b p) s

/-- VSEL: each lane from a or b by the predicate. (R250) -/
def execVsel (d a b : Reg) (s : State) : Out :=
  issue (do
    checkOps [.vec a, .vec b, .vec d]
    let x ← vreg a
    let y ← vreg b
    let t ← me
    setV d ((List.range 16).map fun l => (l, if t.vp.getLsbD l then x.getD l 0 else y.getD l 0))
    return .seq) s

/-- VPMOV xd, vp: the predicate, zero-extended. (R250) -/
def execVpmovToX (d : Reg) (s : State) : Out :=
  issue (do
    checkOps [.dst d]
    dst d ((← me).vp.setWidth 64)
    return .seq) s

/-- VPMOV vp, xa: the predicate from a scalar's low 16 bits. (R250) -/
def execVpmovToVp (a : Reg) (s : State) : Out :=
  issue (do
    checkOps [.src a]
    let x ← src a
    setMe fun t => { t with vp := x.setWidth 16 }
    return .seq) s

end Sys2Proof.Machine
end

