-- ==== Sys2Proof/Machine/Dispatch.lean ====
section
/-! DEFINITION. What each instruction and event of the opcode table does: one arm per constructor of Instr. -/

namespace Sys2Proof.Machine

def exec (i : Instr) (s : State) : Host.Outcome State Fault Refusal :=
  match i with
  | .add d a b => Sys2Proof.Machine.execAdd d a b s
  | .sub d a b => Sys2Proof.Machine.execSub d a b s
  | .mul d a b => Sys2Proof.Machine.execMul d a b s
  | .mulh d a b => Sys2Proof.Machine.execMulh d a b s
  | .mulhu d a b => Sys2Proof.Machine.execMulhu d a b s
  | .mulhsu d a b => Sys2Proof.Machine.execMulhsu d a b s
  | .div d a b => Sys2Proof.Machine.execDiv d a b s
  | .divu d a b => Sys2Proof.Machine.execDivu d a b s
  | .rem d a b => Sys2Proof.Machine.execRem d a b s
  | .remu d a b => Sys2Proof.Machine.execRemu d a b s
  | .and d a b => Sys2Proof.Machine.execAnd d a b s
  | .or d a b => Sys2Proof.Machine.execOr d a b s
  | .xor d a b => Sys2Proof.Machine.execXor d a b s
  | .andn d a b => Sys2Proof.Machine.execAndn d a b s
  | .orn d a b => Sys2Proof.Machine.execOrn d a b s
  | .xnor d a b => Sys2Proof.Machine.execXnor d a b s
  | .shl d a b => Sys2Proof.Machine.execShl d a b s
  | .shr d a b => Sys2Proof.Machine.execShr d a b s
  | .sra d a b => Sys2Proof.Machine.execSra d a b s
  | .rol d a b => Sys2Proof.Machine.execRol d a b s
  | .ror d a b => Sys2Proof.Machine.execRor d a b s
  | .min d a b => Sys2Proof.Machine.execMin d a b s
  | .max d a b => Sys2Proof.Machine.execMax d a b s
  | .minu d a b => Sys2Proof.Machine.execMinu d a b s
  | .maxu d a b => Sys2Proof.Machine.execMaxu d a b s
  | .seq d a b => Sys2Proof.Machine.execSeq d a b s
  | .sne d a b => Sys2Proof.Machine.execSne d a b s
  | .slt d a b => Sys2Proof.Machine.execSlt d a b s
  | .sltu d a b => Sys2Proof.Machine.execSltu d a b s
  | .sle d a b => Sys2Proof.Machine.execSle d a b s
  | .sleu d a b => Sys2Proof.Machine.execSleu d a b s
  | .sel d a b => Sys2Proof.Machine.execSel d a b s
  | .clz d a => Sys2Proof.Machine.execClz d a s
  | .ctz d a => Sys2Proof.Machine.execCtz d a s
  | .popc d a => Sys2Proof.Machine.execPopc d a s
  | .brev d a => Sys2Proof.Machine.execBrev d a s
  | .bswap d a => Sys2Proof.Machine.execBswap d a s
  | .sextb d a => Sys2Proof.Machine.execSextb d a s
  | .sexth d a => Sys2Proof.Machine.execSexth d a s
  | .sextw d a => Sys2Proof.Machine.execSextw d a s
  | .zextb d a => Sys2Proof.Machine.execZextb d a s
  | .zexth d a => Sys2Proof.Machine.execZexth d a s
  | .zextw d a => Sys2Proof.Machine.execZextw d a s
  | .hash d a b => Sys2Proof.Machine.execHash d a b s
  | .addi d a imm => Sys2Proof.Machine.execAddi d a imm s
  | .andi d a imm => Sys2Proof.Machine.execAndi d a imm s
  | .ori d a imm => Sys2Proof.Machine.execOri d a imm s
  | .xori d a imm => Sys2Proof.Machine.execXori d a imm s
  | .slti d a imm => Sys2Proof.Machine.execSlti d a imm s
  | .sltiu d a imm => Sys2Proof.Machine.execSltiu d a imm s
  | .shli d a sg => Sys2Proof.Machine.execShli d a sg s
  | .shri d a sg => Sys2Proof.Machine.execShri d a sg s
  | .srai d a sg => Sys2Proof.Machine.execSrai d a sg s
  | .rori d a sg => Sys2Proof.Machine.execRori d a sg s
  | .movi d imm => Sys2Proof.Machine.execMovi d imm s
  | .movh d q v => Sys2Proof.Machine.execMovh d q v s
  | .bfx d a p w => Sys2Proof.Machine.execBfx d a p w s
  | .bfi d a p w => Sys2Proof.Machine.execBfi d a p w s
  | .beq a b imm => Sys2Proof.Machine.execBeq a b imm s
  | .bne a b imm => Sys2Proof.Machine.execBne a b imm s
  | .blt a b imm => Sys2Proof.Machine.execBlt a b imm s
  | .bge a b imm => Sys2Proof.Machine.execBge a b imm s
  | .bltu a b imm => Sys2Proof.Machine.execBltu a b imm s
  | .bgeu a b imm => Sys2Proof.Machine.execBgeu a b imm s
  | .jmp imm => Sys2Proof.Machine.execJmp imm s
  | .call d imm => Sys2Proof.Machine.execCall d imm s
  | .jr a => Sys2Proof.Machine.execJr a s
  | .callr d a => Sys2Proof.Machine.execCallr d a s
  | .bdnz d imm => Sys2Proof.Machine.execBdnz d imm s
  | .ldb t a sg o => Sys2Proof.Machine.execLdb t a sg o s
  | .ldbu t a sg o => Sys2Proof.Machine.execLdbu t a sg o s
  | .ldh t a sg o => Sys2Proof.Machine.execLdh t a sg o s
  | .ldhu t a sg o => Sys2Proof.Machine.execLdhu t a sg o s
  | .ldw t a sg o => Sys2Proof.Machine.execLdw t a sg o s
  | .ldwu t a sg o => Sys2Proof.Machine.execLdwu t a sg o s
  | .ldd t a sg o => Sys2Proof.Machine.execLdd t a sg o s
  | .stb t a sg o => Sys2Proof.Machine.execStb t a sg o s
  | .sth t a sg o => Sys2Proof.Machine.execSth t a sg o s
  | .stw t a sg o => Sys2Proof.Machine.execStw t a sg o s
  | .std t a sg o => Sys2Proof.Machine.execStd t a sg o s
  | .ldqw a sg o => Sys2Proof.Machine.execLdqw a sg o s
  | .ldqd a sg o => Sys2Proof.Machine.execLdqd a sg o s
  | .stqw a sg o => Sys2Proof.Machine.execStqw a sg o s
  | .stqd a sg o => Sys2Proof.Machine.execStqd a sg o s
  | .lda t a sg z c k => Sys2Proof.Machine.execLda t a sg z c k s
  | .stl t a sg z c k => Sys2Proof.Machine.execStl t a sg z c k s
  | .fence c => Sys2Proof.Machine.execFence c s
  | .aadd d a z c r g => Sys2Proof.Machine.execAadd d a z c r g s
  | .aand d a z c r g => Sys2Proof.Machine.execAand d a z c r g s
  | .aor d a z c r g => Sys2Proof.Machine.execAor d a z c r g s
  | .axor d a z c r g => Sys2Proof.Machine.execAxor d a z c r g s
  | .amin d a z c r g => Sys2Proof.Machine.execAmin d a z c r g s
  | .amax d a z c r g => Sys2Proof.Machine.execAmax d a z c r g s
  | .aminu d a z c r g => Sys2Proof.Machine.execAminu d a z c r g s
  | .amaxu d a z c r g => Sys2Proof.Machine.execAmaxu d a z c r g s
  | .aswp d a z c r g => Sys2Proof.Machine.execAswp d a z c r g s
  | .acas d a z c r g => Sys2Proof.Machine.execAcas d a z c r g s
  | .strm d a b sg => Sys2Proof.Machine.execStrm d a b sg s
  | .strx d a b sg => Sys2Proof.Machine.execStrx d a b sg s
  | .strq d b => Sys2Proof.Machine.execStrq d b s
  | .pref sg a h => Sys2Proof.Machine.execPref sg a h s
  | .cflush sg a => Sys2Proof.Machine.execCflush sg a s
  | .cinv sg a => Sys2Proof.Machine.execCinv sg a s
  | .bsnmap d a b => Sys2Proof.Machine.execBsnmap d a b s
  | .bsnsync d a => Sys2Proof.Machine.execBsnsync d a s
  | .bsndropWb d a => Sys2Proof.Machine.execBsndropWb d a s
  | .bsndropNw d a => Sys2Proof.Machine.execBsndropNw d a s
  | .bsnqry d a => Sys2Proof.Machine.execBsnqry d a s
  | .twrecNew d a b => Sys2Proof.Machine.execTwrecNew d a b s
  | .twrecRerecord d a b => Sys2Proof.Machine.execTwrecRerecord d a b s
  | .twstep d a => Sys2Proof.Machine.execTwstep d a s
  | .twend d a => Sys2Proof.Machine.execTwend d a s
  | .twstat d a => Sys2Proof.Machine.execTwstat d a s
  | .twdrop d a => Sys2Proof.Machine.execTwdrop d a s
  | .vaddI32 d a b p => Sys2Proof.Machine.execVaddI32 d a b p s
  | .vsubI32 d a b p => Sys2Proof.Machine.execVsubI32 d a b p s
  | .vmulI32 d a b p => Sys2Proof.Machine.execVmulI32 d a b p s
  | .vmulhI32 d a b p => Sys2Proof.Machine.execVmulhI32 d a b p s
  | .vminI32 d a b p => Sys2Proof.Machine.execVminI32 d a b p s
  | .vmaxI32 d a b p => Sys2Proof.Machine.execVmaxI32 d a b p s
  | .vminuI32 d a b p => Sys2Proof.Machine.execVminuI32 d a b p s
  | .vmaxuI32 d a b p => Sys2Proof.Machine.execVmaxuI32 d a b p s
  | .vandI32 d a b p => Sys2Proof.Machine.execVandI32 d a b p s
  | .vorI32 d a b p => Sys2Proof.Machine.execVorI32 d a b p s
  | .vxorI32 d a b p => Sys2Proof.Machine.execVxorI32 d a b p s
  | .vshlI32 d a b p => Sys2Proof.Machine.execVshlI32 d a b p s
  | .vshrI32 d a b p => Sys2Proof.Machine.execVshrI32 d a b p s
  | .vsraI32 d a b p => Sys2Proof.Machine.execVsraI32 d a b p s
  | .vaddsI32 d a b p => Sys2Proof.Machine.execVaddsI32 d a b p s
  | .vsubsI32 d a b p => Sys2Proof.Machine.execVsubsI32 d a b p s
  | .vaddI8x4 d a b p => Sys2Proof.Machine.execVaddI8x4 d a b p s
  | .vsubI8x4 d a b p => Sys2Proof.Machine.execVsubI8x4 d a b p s
  | .vaddsI8x4 d a b p => Sys2Proof.Machine.execVaddsI8x4 d a b p s
  | .vsubsI8x4 d a b p => Sys2Proof.Machine.execVsubsI8x4 d a b p s
  | .vminI8x4 d a b p => Sys2Proof.Machine.execVminI8x4 d a b p s
  | .vmaxI8x4 d a b p => Sys2Proof.Machine.execVmaxI8x4 d a b p s
  | .vminuI8x4 d a b p => Sys2Proof.Machine.execVminuI8x4 d a b p s
  | .vmaxuI8x4 d a b p => Sys2Proof.Machine.execVmaxuI8x4 d a b p s
  | .vdot4 d a b p => Sys2Proof.Machine.execVdot4 d a b p s
  | .vdot4su d a b p => Sys2Proof.Machine.execVdot4su d a b p s
  | .vabsdI8x4 d a b p => Sys2Proof.Machine.execVabsdI8x4 d a b p s
  | .vavgI8x4 d a b p => Sys2Proof.Machine.execVavgI8x4 d a b p s
  | .vaddBf16x2 d a b p => Sys2Proof.Machine.execVaddBf16x2 d a b p s
  | .vsubBf16x2 d a b p => Sys2Proof.Machine.execVsubBf16x2 d a b p s
  | .vmulBf16x2 d a b p => Sys2Proof.Machine.execVmulBf16x2 d a b p s
  | .vfmaBf16x2 d a b p => Sys2Proof.Machine.execVfmaBf16x2 d a b p s
  | .vminBf16x2 d a b p => Sys2Proof.Machine.execVminBf16x2 d a b p s
  | .vmaxBf16x2 d a b p => Sys2Proof.Machine.execVmaxBf16x2 d a b p s
  | .vdot2 d a b p => Sys2Proof.Machine.execVdot2 d a b p s
  | .vaddF32 d a b p => Sys2Proof.Machine.execVaddF32 d a b p s
  | .vsubF32 d a b p => Sys2Proof.Machine.execVsubF32 d a b p s
  | .vmulF32 d a b p => Sys2Proof.Machine.execVmulF32 d a b p s
  | .vfmaF32 d a b p => Sys2Proof.Machine.execVfmaF32 d a b p s
  | .vfmsF32 d a b p => Sys2Proof.Machine.execVfmsF32 d a b p s
  | .vminF32 d a b p => Sys2Proof.Machine.execVminF32 d a b p s
  | .vmaxF32 d a b p => Sys2Proof.Machine.execVmaxF32 d a b p s
  | .vabsF32 d a p => Sys2Proof.Machine.execVabsF32 d a p s
  | .vnegF32 d a p => Sys2Proof.Machine.execVnegF32 d a p s
  | .frcpa d a p => Sys2Proof.Machine.execFrcpa d a p s
  | .frsqa d a p => Sys2Proof.Machine.execFrsqa d a p s
  | .fexp2a d a p => Sys2Proof.Machine.execFexp2a d a p s
  | .vcvtF32I32 d a r p => Sys2Proof.Machine.execVcvtF32I32 d a r p s
  | .vcvtI32F32 d a r p => Sys2Proof.Machine.execVcvtI32F32 d a r p s
  | .vcvtF32Bf16 d a h p => Sys2Proof.Machine.execVcvtF32Bf16 d a h p s
  | .vcvtBf16F32 d a h r p => Sys2Proof.Machine.execVcvtBf16F32 d a h r p s
  | .vcvtF32E4m3 d a sg p => Sys2Proof.Machine.execVcvtF32E4m3 d a sg p s
  | .vcvtF32E5m2 d a sg p => Sys2Proof.Machine.execVcvtF32E5m2 d a sg p s
  | .vcvtE4m3F32 d a sg r p => Sys2Proof.Machine.execVcvtE4m3F32 d a sg r p s
  | .vcvtE5m2F32 d a sg r p => Sys2Proof.Machine.execVcvtE5m2F32 d a sg r p s
  | .vcvtF32I8 d a sg p => Sys2Proof.Machine.execVcvtF32I8 d a sg p s
  | .vcvtI8F32 d a sg r p => Sys2Proof.Machine.execVcvtI8F32 d a sg r p s
  | .vld d a sg p => Sys2Proof.Machine.execVld d a sg p s
  | .vst d a sg p => Sys2Proof.Machine.execVst d a sg p s
  | .vlds d a sg x p => Sys2Proof.Machine.execVlds d a sg x p s
  | .vgath d a sg x p => Sys2Proof.Machine.execVgath d a sg x p s
  | .vscat d a sg x p => Sys2Proof.Machine.execVscat d a sg x p s
  | .vbcast d a p => Sys2Proof.Machine.execVbcast d a p s
  | .vextr d a l => Sys2Proof.Machine.execVextr d a l s
  | .vins d a l p => Sys2Proof.Machine.execVins d a l p s
  | .vperm d a b p => Sys2Proof.Machine.execVperm d a b p s
  | .vrot d a k p => Sys2Proof.Machine.execVrot d a k p s
  | .vredaddI32 d a p => Sys2Proof.Machine.execVredaddI32 d a p s
  | .vredaddF32 d a p => Sys2Proof.Machine.execVredaddF32 d a p s
  | .vredmaxI32 d a p => Sys2Proof.Machine.execVredmaxI32 d a p s
  | .vredmaxF32 d a p => Sys2Proof.Machine.execVredmaxF32 d a p s
  | .vscanI32 d a p => Sys2Proof.Machine.execVscanI32 d a p s
  | .vscanF32 d a p => Sys2Proof.Machine.execVscanF32 d a p s
  | .vcmpeqI32 a b p => Sys2Proof.Machine.execVcmpeqI32 a b p s
  | .vcmpltI32 a b p => Sys2Proof.Machine.execVcmpltI32 a b p s
  | .vcmpltuI32 a b p => Sys2Proof.Machine.execVcmpltuI32 a b p s
  | .vcmpleI32 a b p => Sys2Proof.Machine.execVcmpleI32 a b p s
  | .vcmpeqF32 a b p => Sys2Proof.Machine.execVcmpeqF32 a b p s
  | .vcmpltF32 a b p => Sys2Proof.Machine.execVcmpltF32 a b p s
  | .vcmpleF32 a b p => Sys2Proof.Machine.execVcmpleF32 a b p s
  | .vcmpunF32 a b p => Sys2Proof.Machine.execVcmpunF32 a b p s
  | .vsel d a b => Sys2Proof.Machine.execVsel d a b s
  | .vpmovToX d => Sys2Proof.Machine.execVpmovToX d s
  | .vpmovToVp a => Sys2Proof.Machine.execVpmovToVp a s
  | .jsub d a => Sys2Proof.Machine.execJsub d a s
  | .jpoll d a => Sys2Proof.Machine.execJpoll d a s
  | .jwait d a => Sys2Proof.Machine.execJwait d a s
  | .jcancel d a => Sys2Proof.Machine.execJcancel d a s
  | .mgang d a => Sys2Proof.Machine.execMgang d a s
  | .rdone => Sys2Proof.Machine.execRdone s
  | .spawn d a b => Sys2Proof.Machine.execSpawn d a b s
  | .exit => Sys2Proof.Machine.execExit s
  | .yield => Sys2Proof.Machine.execYield s
  | .sleep a => Sys2Proof.Machine.execSleep a s
  | .wakeSlot d a => Sys2Proof.Machine.execWakeSlot d a s
  | .wakeSwid d a => Sys2Proof.Machine.execWakeSwid d a s
  | .wakeParked d a => Sys2Proof.Machine.execWakeParked d a s
  | .join d a => Sys2Proof.Machine.execJoin d a s
  | .leave d a => Sys2Proof.Machine.execLeave d a s
  | .gbar d a => Sys2Proof.Machine.execGbar d a s
  | .gcnt d a => Sys2Proof.Machine.execGcnt d a s
  | .sluice d a => Sys2Proof.Machine.execSluice d a s
  | .tid d => Sys2Proof.Machine.execTid d s
  | .flaunch d a => Sys2Proof.Machine.execFlaunch d a s
  | .send d a b n => Sys2Proof.Machine.execSend d a b n s
  | .recv d a => Sys2Proof.Machine.execRecv d a s
  | .recvt d a b => Sys2Proof.Machine.execRecvt d a b s
  | .rack d a => Sys2Proof.Machine.execRack d a s
  | .epnew d a => Sys2Proof.Machine.execEpnew d a s
  | .epfree d a => Sys2Proof.Machine.execEpfree d a s
  | .epmove d a b => Sys2Proof.Machine.execEpmove d a b s
  | .tcall d a b n => Sys2Proof.Machine.execTcall d a b n s
  | .tans d a n => Sys2Proof.Machine.execTans d a n s
  | .tret => Sys2Proof.Machine.execTret s
  | .tnext d a => Sys2Proof.Machine.execTnext d a s
  | .terr => Sys2Proof.Machine.execTerr s
  | .trel a => Sys2Proof.Machine.execTrel a s
  | .tlook d a b n => Sys2Proof.Machine.execTlook d a b n s
  | .tctlStat d a b => Sys2Proof.Machine.execTctlStat d a b s
  | .tctlFlushCallee d a b => Sys2Proof.Machine.execTctlFlushCallee d a b s
  | .tctlFlushCid d a b => Sys2Proof.Machine.execTctlFlushCid d a b s
  | .mfs d k => Sys2Proof.Machine.execMfs d k s
  | .mts d k => Sys2Proof.Machine.execMts d k s
  | .trap k => Sys2Proof.Machine.execTrap k s
  | .eret => Sys2Proof.Machine.execEret s
  | .brk k => Sys2Proof.Machine.execBrk k s
  | .segld sg a => Sys2Proof.Machine.execSegld sg a s
  | .segrd d sg => Sys2Proof.Machine.execSegrd d sg s
  | .pinv d a b => Sys2Proof.Machine.execPinv d a b s
  | .asyncTrapDelivery slot => Sys2Proof.Machine.execAsyncTrapDelivery slot s
  | .operationResult slot tx => Sys2Proof.Machine.execOperationResult slot tx s
  | .loadDataArrives ends tx addr got => Sys2Proof.Machine.execLoadDataArrives ends tx addr got s
  | .storeDrain core => Sys2Proof.Machine.execStoreDrain core s
  | .storeAck ends entries code hp => Sys2Proof.Machine.execStoreAck ends entries code hp s
  | .hostDone owed => Sys2Proof.Machine.execHostDone owed s
  | .requestAtHome slice r => Sys2Proof.Machine.execRequestAtHome slice r s
  | .memoryReplyAtHome slice cid line => Sys2Proof.Machine.execMemoryReplyAtHome slice cid line s
  | .memoryControllerRequest ctrl page cid => Sys2Proof.Machine.execMemoryControllerRequest ctrl page cid s
  | .hotnessIntervalEnd ctrl => Sys2Proof.Machine.execHotnessIntervalEnd ctrl s
  | .mgHotctlWrite value => Sys2Proof.Machine.execMgHotctlWrite value s
  | .l1FillLands ends cid line install data => Sys2Proof.Machine.execL1FillLands ends cid line install data s
  | .invalidationProbe core slice cid line => Sys2Proof.Machine.execInvalidationProbe core slice cid line s
  | .probeAckAtHome ends cid line dirtyHit => Sys2Proof.Machine.execProbeAckAtHome ends cid line dirtyHit s
  | .towArrivesL1 core slice cid line handle data => Sys2Proof.Machine.execTowArrivesL1 core slice cid line handle data s
  | .towArrivesBasin core slice cid line handle data => Sys2Proof.Machine.execTowArrivesBasin core slice cid line handle data s
  | .towAck ends cid line => Sys2Proof.Machine.execTowAck ends cid line s
  | .towUseReport ends handle used => Sys2Proof.Machine.execTowUseReport ends handle used s
  | .stepMessage slice handle slot => Sys2Proof.Machine.execStepMessage slice handle slot s
  | .remoteAccessArrival r => Sys2Proof.Machine.execRemoteAccessArrival r s
  | .domAccessArrival dev scid r => Sys2Proof.Machine.execDomAccessArrival dev scid r s
  | .domainTimeout r => Sys2Proof.Machine.execDomainTimeout r s
  | .basinFillLands ends clus sline reg data => Sys2Proof.Machine.execBasinFillLands ends clus sline reg data s
  | .basinInvalidationProbe core clus sline slice cid line mask fromBasin => Sys2Proof.Machine.execBasinInvalidationProbe core clus sline slice cid line mask fromBasin s
  | .recallProbe core clus sline slice cid line => Sys2Proof.Machine.execRecallProbe core clus sline slice cid line s
  | .writeBackMessage slice r => Sys2Proof.Machine.execWriteBackMessage slice r s
  | .writeBackAck ends tx bn clus sline reg marks refused => Sys2Proof.Machine.execWriteBackAck ends tx bn clus sline reg marks refused s
  | .hostMemrdShared slice cid line half => Sys2Proof.Machine.execHostMemrdShared slice cid line half s
  | .hostMemrdOwn slice cid line half => Sys2Proof.Machine.execHostMemrdOwn slice cid line half s
  | .hostMemwr slice cid line half data m => Sys2Proof.Machine.execHostMemwr slice cid line half data m s
  | .hostMeminv slice cid line half => Sys2Proof.Machine.execHostMeminv slice cid line half s
  | .hostMemspecrd slice cid line half => Sys2Proof.Machine.execHostMemspecrd slice cid line half s
  | .backInvalidationResponse slice cid line half shared => Sys2Proof.Machine.execBackInvalidationResponse slice cid line half shared s
  | .walkComplete cluster cid page => Sys2Proof.Machine.execWalkComplete cluster cid page s
  | .faultQueueRetry cid => Sys2Proof.Machine.execFaultQueueRetry cid s
  | .pinvAccept cluster slot req arg => Sys2Proof.Machine.execPinvAccept cluster slot req arg s
  | .spawnArrival q => Sys2Proof.Machine.execSpawnArrival q s
  | .slotGrant core => Sys2Proof.Machine.execSlotGrant core s
  | .saveReported slot => Sys2Proof.Machine.execSaveReported slot s
  | .forcedSave core => Sys2Proof.Machine.execForcedSave core s
  | .sleepLimit slot => Sys2Proof.Machine.execSleepLimit slot s
  | .recvtLimit slot => Sys2Proof.Machine.execRecvtLimit slot s
  | .sluiceTimeout core tree idx => Sys2Proof.Machine.execSluiceTimeout core tree idx s
  | .inboxDelivery core entry => Sys2Proof.Machine.execInboxDelivery core entry s
  | .messageDelivery m => Sys2Proof.Machine.execMessageDelivery m s
  | .tsTchgWrite core value => Sys2Proof.Machine.execTsTchgWrite core value s
  | .tsJrelWrite core value => Sys2Proof.Machine.execTsJrelWrite core value s
  | .tsEwakeWrite value => Sys2Proof.Machine.execTsEwakeWrite value s
  | .mtCtx cluster job => Sys2Proof.Machine.execMtCtx cluster job s
  | .mtTern cluster job => Sys2Proof.Machine.execMtTern cluster job s
  | .mtBooth cluster job => Sys2Proof.Machine.execMtBooth cluster job s
  | .mtZero cluster job => Sys2Proof.Machine.execMtZero cluster job s
  | .mtDrain cluster job => Sys2Proof.Machine.execMtDrain cluster job s
  | .cpCopy cluster job => Sys2Proof.Machine.execCpCopy cluster job s
  | .cpFill cluster job => Sys2Proof.Machine.execCpFill cluster job s
  | .cpGath cluster job => Sys2Proof.Machine.execCpGath cluster job s
  | .cpScat cluster job => Sys2Proof.Machine.execCpScat cluster job s
  | .cpRed cluster job => Sys2Proof.Machine.execCpRed cluster job s
  | .cpAr cluster job => Sys2Proof.Machine.execCpAr cluster job s
  | .cpBcast cluster job => Sys2Proof.Machine.execCpBcast cluster job s
  | .copyWriteAck ends job unit ok hp red => Sys2Proof.Machine.execCopyWriteAck ends job unit ok hp red s
  | .ringStep cluster job => Sys2Proof.Machine.execRingStep cluster job s
  | .rowDrain cluster job member => Sys2Proof.Machine.execRowDrain cluster job member s
  | .rowHandlerStart core => Sys2Proof.Machine.execRowHandlerStart core s
  | .jobPreemption cluster job => Sys2Proof.Machine.execJobPreemption cluster job s
  | .jobResume cluster job => Sys2Proof.Machine.execJobResume cluster job s
  | .collectiveMatch cluster job peers => Sys2Proof.Machine.execCollectiveMatch cluster job peers s
  | .collectiveTimeout cluster job => Sys2Proof.Machine.execCollectiveTimeout cluster job s
  | .snapshotRestore die snap => Sys2Proof.Machine.execSnapshotRestore die snap s
  | .hostRingSlot cid => Sys2Proof.Machine.execHostRingSlot cid s
  | .counterPoll cid => Sys2Proof.Machine.execCounterPoll cid s
  | .launchPlacement cid => Sys2Proof.Machine.execLaunchPlacement cid s
  | .flotillaRetirement flotilla => Sys2Proof.Machine.execFlotillaRetirement flotilla s
  | .doorbellTail vf tail => Sys2Proof.Machine.execDoorbellTail vf tail s
  | .doorbellRerrClear vf value => Sys2Proof.Machine.execDoorbellRerrClear vf value s
  | .partCreate desc => Sys2Proof.Machine.execPartCreate desc s
  | .partDestroy cid => Sys2Proof.Machine.execPartDestroy cid s
  | .vfBind vf cid => Sys2Proof.Machine.execVfBind vf cid s
  | .flushCommon => Sys2Proof.Machine.execFlushCommon s
  | .domainSet arg area => Sys2Proof.Machine.execDomainSet arg area s
  | .vfEnableClear => Sys2Proof.Machine.execVfEnableClear s
  | .functionLevelReset vf => Sys2Proof.Machine.execFunctionLevelReset vf s
  | .vfEnableSet => Sys2Proof.Machine.execVfEnableSet s
  | .attestationReport nonce => Sys2Proof.Machine.execAttestationReport nonce s
  | .aqueductPortFailure port => Sys2Proof.Machine.execAqueductPortFailure port s
  | .cxlResponseTimeout slice cid line write => Sys2Proof.Machine.execCxlResponseTimeout slice cid line write s
  | .marchTestComplete str adr clu cid faulty repaired => Sys2Proof.Machine.execMarchTestComplete str adr clu cid faulty repaired s
  | .reset => Sys2Proof.Machine.execReset s
  | .calibrationComplete controller mmode calibration link0 link1 => Sys2Proof.Machine.execCalibrationComplete controller mmode calibration link0 link1 s
  | .memoryInitComplete => Sys2Proof.Machine.execMemoryInitComplete s
  | .zeroingComplete => Sys2Proof.Machine.execZeroingComplete s
  | .powerLimit => Sys2Proof.Machine.execPowerLimit s
  | .thermalShutdown => Sys2Proof.Machine.execThermalShutdown s
  | .chipScratchpadAccess r => Sys2Proof.Machine.execChipScratchpadAccess r s
  | .barWindowAccess vf addr op => Sys2Proof.Machine.execBarWindowAccess vf addr op s
  | .slotLending slot => Sys2Proof.Machine.execSlotLending slot s

end Sys2Proof.Machine
end

