-- ==== Sys2Proof/Machine/Run.lean ====
section
/-! DEFINITION. What each event does, as the step runs it: the same meanings that Dispatch.lean names for the event
rows of the opcode table; when an event of the machine's own can come about, and in what order (spec/03_hierarchy.md
R49, R403). -/

namespace Sys2Proof.Machine

/-- What an event does. -/
def runEvent (e : Event) (s : State) : Out :=
  match e with
  | .asyncTrapDelivery slot => execAsyncTrapDelivery slot s
  | .operationResult slot tx => execOperationResult slot tx s
  | .loadDataArrives ends tx addr got => execLoadDataArrives ends tx addr got s
  | .storeDrain core => execStoreDrain core s
  | .storeAck ends entries code hp => execStoreAck ends entries code hp s
  | .hostDone owed => execHostDone owed s
  | .requestAtHome slice r => execRequestAtHome slice r s
  | .memoryReplyAtHome slice cid line => execMemoryReplyAtHome slice cid line s
  | .memoryControllerRequest ctrl page cid => execMemoryControllerRequest ctrl page cid s
  | .hotnessIntervalEnd ctrl => execHotnessIntervalEnd ctrl s
  | .mgHotctlWrite value => execMgHotctlWrite value s
  | .l1FillLands ends cid line install data => execL1FillLands ends cid line install data s
  | .invalidationProbe core slice cid line => execInvalidationProbe core slice cid line s
  | .probeAckAtHome ends cid line dirtyHit => execProbeAckAtHome ends cid line dirtyHit s
  | .towArrivesL1 core slice cid line handle data => execTowArrivesL1 core slice cid line handle data s
  | .towArrivesBasin core slice cid line handle data => execTowArrivesBasin core slice cid line handle data s
  | .towAck ends cid line => execTowAck ends cid line s
  | .towUseReport ends handle used => execTowUseReport ends handle used s
  | .stepMessage slice handle slot => execStepMessage slice handle slot s
  | .remoteAccessArrival r => execRemoteAccessArrival r s
  | .domAccessArrival dev scid r => execDomAccessArrival dev scid r s
  | .domainTimeout r => execDomainTimeout r s
  | .basinFillLands ends clus sline reg data => execBasinFillLands ends clus sline reg data s
  | .basinInvalidationProbe core clus sline slice cid line mask fromBasin =>
    execBasinInvalidationProbe core clus sline slice cid line mask fromBasin s
  | .recallProbe core clus sline slice cid line => execRecallProbe core clus sline slice cid line s
  | .writeBackMessage slice r => execWriteBackMessage slice r s
  | .writeBackAck ends tx bn clus sline reg marks refused => execWriteBackAck ends tx bn clus sline reg marks refused s
  | .hostMemrdShared slice cid line half => execHostMemrdShared slice cid line half s
  | .hostMemrdOwn slice cid line half => execHostMemrdOwn slice cid line half s
  | .hostMemwr slice cid line half data m => execHostMemwr slice cid line half data m s
  | .hostMeminv slice cid line half => execHostMeminv slice cid line half s
  | .hostMemspecrd slice cid line half => execHostMemspecrd slice cid line half s
  | .backInvalidationResponse slice cid line half shared => execBackInvalidationResponse slice cid line half shared s
  | .walkComplete cluster cid page => execWalkComplete cluster cid page s
  | .faultQueueRetry cid => execFaultQueueRetry cid s
  | .pinvAccept cluster slot req arg => execPinvAccept cluster slot req arg s
  | .spawnArrival q => execSpawnArrival q s
  | .slotGrant core => execSlotGrant core s
  | .saveReported slot => execSaveReported slot s
  | .forcedSave core => execForcedSave core s
  | .sleepLimit slot => execSleepLimit slot s
  | .recvtLimit slot => execRecvtLimit slot s
  | .sluiceTimeout core tree idx => execSluiceTimeout core tree idx s
  | .inboxDelivery core entry => execInboxDelivery core entry s
  | .messageDelivery m => execMessageDelivery m s
  | .tsTchgWrite core value => execTsTchgWrite core value s
  | .tsJrelWrite core value => execTsJrelWrite core value s
  | .tsEwakeWrite value => execTsEwakeWrite value s
  | .mtCtx cluster job => execMtCtx cluster job s
  | .mtTern cluster job => execMtTern cluster job s
  | .mtBooth cluster job => execMtBooth cluster job s
  | .mtZero cluster job => execMtZero cluster job s
  | .mtDrain cluster job => execMtDrain cluster job s
  | .cpCopy cluster job => execCpCopy cluster job s
  | .cpFill cluster job => execCpFill cluster job s
  | .cpGath cluster job => execCpGath cluster job s
  | .cpScat cluster job => execCpScat cluster job s
  | .cpRed cluster job => execCpRed cluster job s
  | .cpAr cluster job => execCpAr cluster job s
  | .cpBcast cluster job => execCpBcast cluster job s
  | .copyWriteAck ends job unit ok hp red => execCopyWriteAck ends job unit ok hp red s
  | .ringStep cluster job => execRingStep cluster job s
  | .rowDrain cluster job member => execRowDrain cluster job member s
  | .rowHandlerStart core => execRowHandlerStart core s
  | .jobPreemption cluster job => execJobPreemption cluster job s
  | .jobResume cluster job => execJobResume cluster job s
  | .collectiveMatch cluster job peers => execCollectiveMatch cluster job peers s
  | .collectiveTimeout cluster job => execCollectiveTimeout cluster job s
  | .snapshotRestore die snap => execSnapshotRestore die snap s
  | .hostRingSlot cid => execHostRingSlot cid s
  | .counterPoll cid => execCounterPoll cid s
  | .launchPlacement cid => execLaunchPlacement cid s
  | .flotillaRetirement flotilla => execFlotillaRetirement flotilla s
  | .doorbellTail vf tail => execDoorbellTail vf tail s
  | .doorbellRerrClear vf value => execDoorbellRerrClear vf value s
  | .partCreate desc => execPartCreate desc s
  | .partDestroy cid => execPartDestroy cid s
  | .vfBind vf cid => execVfBind vf cid s
  | .flushCommon => execFlushCommon s
  | .domainSet arg area => execDomainSet arg area s
  | .vfEnableClear => execVfEnableClear s
  | .functionLevelReset vf => execFunctionLevelReset vf s
  | .vfEnableSet => execVfEnableSet s
  | .attestationReport nonce => execAttestationReport nonce s
  | .aqueductPortFailure port => execAqueductPortFailure port s
  | .cxlResponseTimeout slice cid line write => execCxlResponseTimeout slice cid line write s
  | .marchTestComplete str adr unit cid faulty repaired => execMarchTestComplete str adr unit cid faulty repaired s
  | .reset => execReset s
  | .calibrationComplete controller mmode calibration link0 link1 => execCalibrationComplete controller mmode calibration link0 link1 s
  | .memoryInitComplete => execMemoryInitComplete s
  | .zeroingComplete => execZeroingComplete s
  | .powerLimit => execPowerLimit s
  | .thermalShutdown => execThermalShutdown s
  | .chipScratchpadAccess r => execChipScratchpadAccess r s
  | .barWindowAccess vf addr op => execBarWindowAccess vf addr op s
  | .slotLending slot => execSlotLending slot s
  | .jobAged cluster job => execJobAged cluster job s
  | .headAged core => execHeadAged core s
  | .headCopy name head => execHeadCopy name head s
  | .failureWake die => execFailureWake die s
  | .errorFound place bad => execErrorFound place bad s
  | .expanderRead slice r bytes bad => execExpanderRead slice r bytes bad s
  | .expanderWrite cid line halves => execExpanderWrite cid line halves s
  | .errorHidden place => execErrorHidden place s
  | .wayRetired str adr clu cid => execWayRetired str adr clu cid s

/-- Whether an event in flight can come about now. (DESIGN CHOICE, log entry 1) -/
def enabled (s : State) : Event → Bool
  | .storeDrain c => canDrain s c
  | .saveReported slot => saveDone s slot
  | .pinvAccept k _ req _ => !bitOf req 57 || pinvDone s k (fld req 11 0)
  | .walkComplete k cid page => mayVisit s (walkVisits s k cid page)
  | .faultQueueRetry cid => faultReady s cid
  | .hostRingSlot cid => ringReady s cid
  | .flotillaRetirement f => retireReady s f
  | .tsTchgWrite c v => mayVisit s (changeVisits s c v)
  | .hotnessIntervalEnd c => mayVisit s (hotVisits s c)
  | .partCreate _ => s.pkg.ready
  | .partDestroy _ => s.pkg.ready
  | .vfBind _ cid => s.pkg.ready && mayVisit s (restartVisits s cid)
  | .vfEnableSet => mayVisit s (enableVisits s)
  | .flushCommon => s.pkg.ready && flushReady s
  | .domainSet _ _ => s.pkg.ready && domQuiet s
  | .wayRetired str _ clu _ => retireClear s str clu
  | .domAccessArrival dev scid r => mayVisit s (domVisits s dev scid r)
  | _ => true

/-- The node of a job's unit. -/
def nodeOfJob (s : State) (k id : Nat) : Nat := ((jobAt s k id).map (jobNode k)).getD (nodeCopy k)

/-- The node that an agent's accesses leave from and its replies go to; none for the host and the directories, whose
accesses keep no order among each other. (DEDUCED, log entry 40) -/
def nodeOf (s : State) (core : Nat) : Agent → Option Nat
  | .host => none
  | .scheduler => none
  | .device d => some (nodeDevice (core * 64 + d))
  | .engine k id _ => some (nodeOfJob s k id)
  | .load slot => some (nodeCore (coreOf slot))
  | _ => some (nodeCore core)

/-- The core of an agent that is none of an engine, for its replies. -/
def coreOfAgent : Agent → Nat
  | .load slot => coreOf slot
  | .journal c _ => c
  | .flush c _ => c
  | .fill c _ _ => c
  | .writeBack c _ _ _ => c
  | .prefetch c => c
  | _ => 0

/-- The engine that has sent an inbox entry: a job's report comes from the unit that runs the job (R258); a bounce comes from
a directory, which is none of R49's senders. (DEDUCED, log entry 40) -/
def reporter (c : Nat) (e : Word) : Option Nat :=
  if fld e 63 60 = 1 then some (if fld e 59 56 = 0 then nodeMatrix (clusterOf c) else nodeCopy (clusterOf c)) else none

/-- A channel of the request class (R48). -/
def requestChannel (s : State) (r : Access) (dest : Nat) : Option (Nat × Nat × Nat) :=
  (nodeOf s r.core r.agent).map fun src => (0, src, dest)

/-- R48, R49: the class, sender and receiver of a message, where its order against others of the same three is fixed.
(DESIGN CHOICE, log entry 1; DEDUCED, log entry 40) -/
def channel (s : State) : Event → Option (Nat × Nat × Nat)
  | .requestAtHome h r => requestChannel s r (nodeSlice h)
  | .writeBackMessage h r => requestChannel s r (nodeSlice h)
  | .chipScratchpadAccess r => requestChannel s r (nodeSlice (chipSlice r.addr))
  | .remoteAccessArrival r => requestChannel s r (nodeCore (remoteCore r))
  | .stepMessage h _ slot => slot.map fun k => (0, nodeCore (coreOf k), nodeSlice h)
  | .loadDataArrives ⟨src, slot⟩ _ _ _ => some (1, src, nodeCore (coreOf slot))
  | .storeAck ⟨src, c⟩ _ _ _ => some (1, src, nodeCore c)
  | .writeBackAck ⟨src, c⟩ _ _ _ _ _ _ _ => some (1, src, nodeCore c)
  | .copyWriteAck ⟨src, k⟩ id _ _ _ _ => some (1, src, nodeOfJob s k id)
  | .hostDone ⟨src, who, _⟩ => (nodeOf s (coreOfAgent who) who).map fun dest => (1, src, dest)
  | .l1FillLands ⟨src, c⟩ _ _ _ _ => some (1, src, nodeCore c)
  | .basinFillLands ⟨src, c⟩ _ _ _ _ => some (1, src, nodeCore c)
  | .probeAckAtHome ⟨src, h⟩ _ _ _ => some (1, src, nodeSlice h)
  | .towAck ⟨src, h⟩ _ _ => some (1, src, nodeSlice h)
  | .towUseReport ⟨src, h⟩ _ _ => some (1, src, nodeSlice h)
  | .invalidationProbe c h _ _ => some (2, nodeSlice h, nodeCore c)
  | .basinInvalidationProbe c _ _ h _ _ _ _ => some (2, nodeSlice h, nodeCore c)
  | .recallProbe c _ _ h _ _ => some (2, nodeSlice h, nodeCore c)
  | .towArrivesL1 c h _ _ _ _ => some (3, nodeSlice h, nodeCore c)
  | .towArrivesBasin c h _ _ _ _ => some (3, nodeSlice h, nodeCore c)
  | .spawnArrival q => some (4, nodeCore (coreOf q.from_), nodeCore q.target)
  | .messageDelivery m => some (4, nodeCore m.core, nodeUnit (2 ^ 8 + m.at_))
  | .inboxDelivery c e => (reporter c e).map fun src => (4, src, nodeCore c)
  | _ => none

/-- Whether a message may come about before those that were sent earlier: none of them is of its channel (R49).
(DESIGN CHOICE, log entry 1; DEDUCED, log entry 40) -/
def mayOvertake (s : State) (e : Event) (earlier : List Event) : Bool :=
  match channel s e with
  | none => true
  | some c => earlier.all fun x => channel s x != some c

/-- The first enabled event of a list, with the list that is left. -/
def takeEnabled (s : State) : List Event → Option (Event × List Event)
  | [] => none
  | e :: es => if enabled s e then some (e, es) else (takeEnabled s es).map fun p => (p.1, e :: p.2)

/-- Whether a line of the package owes a host-done for an access, or one is on its way. -/
def owedHere (s : State) (tx : Nat) : Bool :=
  (s.slices.any fun h => h.2.lines.any fun x =>
    (x.bi.any fun b => b.done.map Prod.snd == some tx) || x.current.map Access.tx == some tx) ||
    s.due.any fun e => match e with
      | .hostDone ⟨_, _, t⟩ => t == tx
      | _ => false

/-- The host-dones that the package owes a job, at most: each half of a line for itself. -/
def debtsTo (s : State) (k id : Nat) : Nat :=
  let mine := fun (a : Agent) => match a with
    | .engine k' id' _ => k' == k && id' == id
    | _ => false
  let ofLine := fun (x : HomeLine) =>
    (x.bi.filter fun b => (b.done.map fun d => mine d.1).getD false).length + if x.current.any fun r => mine r.agent then 1 else 0
  let sent := s.due.filter fun e => match e with
    | .hostDone ⟨_, who, _⟩ => mine who
    | _ => false
  (s.slices.flatMap fun h => h.2.lines.map ofLine).sum + sent.length

/-- Whether a thread or a job of the package awaits a host-done that another device owes for an access. -/
def awaitsDone (s : State) (who : Agent) (tx : Nat) : Bool :=
  match who with
  | .engine k id _ => ((jobAt s k id).map fun j => decide (debtsTo s k id < j.hp)).getD false
  | _ => (s.threads.any fun t => t.2.hostPending.contains tx) || (s.cores.any fun c => c.2.goneOwed.contains tx) || s.saved.any fun x => x.thread.hostPending.contains tx

/-- Whether an event may come from outside of what the machine itself sends: the host and its links, the mailbox,
another device's answers and accesses, the package's own units, and the scheduler's lending of a slot.
(DESIGN CHOICE, log entry 1; DESIGN CHOICE, log entry 16) -/
def fromOutside (s : State) : Event → Bool
  | .hostMemrdShared _ _ _ _ => true
  | .hostMemrdOwn _ _ _ _ => true
  | .hostMemwr _ _ _ _ _ _ => true
  | .hostMeminv _ _ _ _ => true
  | .hostMemspecrd _ _ _ _ => true
  | .backInvalidationResponse _ _ _ _ _ => true
  | .barWindowAccess _ _ _ => true
  | .doorbellTail _ _ => true
  | .doorbellRerrClear _ _ => true
  | .partCreate _ => true
  | .partDestroy _ => true
  | .vfBind _ _ => true
  | .flushCommon => true
  | .domainSet _ _ => true
  | .vfEnableClear => true
  | .vfEnableSet => true
  | .functionLevelReset _ => true
  | .attestationReport _ => true
  | .aqueductPortFailure _ => true
  | .cxlResponseTimeout _ _ _ _ => true
  | .marchTestComplete _ _ _ _ _ _ => true
  | .errorFound _ _ => true
  | .errorHidden _ => true
  | .reset => true
  | .calibrationComplete _ _ _ _ _ => true
  | .memoryInitComplete => true
  | .zeroingComplete => true
  | .powerLimit => true
  | .thermalShutdown => true
  | .slotLending _ => true
  | .domAccessArrival dev _ r => !domBefore s dev r
  | .collectiveMatch _ _ _ => true
  | .hostDone ⟨_, who, tx⟩ => awaitsDone s who tx && !owedHere s tx
  | .loadDataArrives _ tx _ _ => s.timers.any fun e => match e with
    | .domainTimeout r => r.tx == tx && !s.pkg.lostTx.contains r.tx
    | _ => false
  | .storeAck ⟨_, c⟩ es _ _ => s.timers.any fun e => match e with
    | .domainTimeout r => r.agent == .journal c es && !s.pkg.lostTx.contains r.tx
    | _ => false
  | .copyWriteAck ⟨_, k⟩ j u _ _ _ => s.timers.any fun e => match e with
    | .domainTimeout r => r.agent == .engine k j u && !s.pkg.lostTx.contains r.tx
    | _ => false
  | _ => false

end Sys2Proof.Machine
end

