-- ==== Sys2Proof/Machine/Sched.lean ====
section
/-! DEFINITION. Which agent moves next (spec/11_threads.md R181, R183; spec/22_scheduling.md R349; spec/03_hierarchy.md
R403): the oracle `picks` of the state where it says, and a fixed order otherwise. -/

namespace Sys2Proof.Machine

/-- Whether a slot's thread waits for its next instruction, which has not issued (R183). -/
def stalledAt (s : State) (slot : Nat) : Bool := ((thr s slot).map fun t => retries t.status).getD false

/-- The half that an instruction's major names has picked its slot, if the instruction has issued: one that must wait takes
no issue slot (R181, R183). -/
def picked (slot : Nat) (w : BitVec 32) : Out → Out
  | .next s => .next (if stalledAt s slot then s else turn s slot w)
  | o => o

/-- A fetched word issues: decoded, it is executed; a word that is no instruction traps (R158). -/
def issueWord (s : State) (slot : Nat) (w : BitVec 32) : Out :=
  picked slot w (match decodeWord w with
    | some i => exec i s
    | none => .next (illegalWord s w))

/-- A slot's turn: a pending asynchronous trap (R353), or the fetch (R23) and the instruction.
(DEDUCED, log entry 36) -/
def issueSlot (s : State) (slot : Nat) : Out :=
  match thr s slot with
  | none => .next s
  | some t =>
    if mayTrap t then .next (deliverAsync s slot)
    else if !mayIssue t then .next s
    else
      let s := { s with cur := slot }
      match fetch s with
      | .trap c v => .next (enterTrap s slot c false v 0 t.pc)
      | .stop s => .next s
      | .word w s => issueWord s slot w

/-- Whether a slot's thread has moved on, or has set something going. -/
def progress (s s' : State) (slot : Nat) : Bool :=
  (thr s' slot).map (fun t => t.status) != (thr s slot).map (fun t => t.status) || (takeEnabled s' s'.due).isSome

/-- What comes of a slot's turn: nothing where its thread waits on as before. -/
def tryIssue (s : State) (slot : Nat) : Option Out :=
  match issueSlot s slot with
  | .next s' =>
    if ((thr s slot).map fun t => t.status == .ready).getD false || progress s s' slot then some (.next s') else none
  | o => some o

/-! ### The rotation (R181) -/

/-- The half that a slot's next instruction is of, true for the execute half; the fetch of an instruction that is not known
yet counts for the access half. -/
def halfOf (s : State) (slot : Nat) : Bool := ((peek s slot).map executeHalf).getD false

/-- The distance of a slot from a half's pointer, the slot that follows it first. -/
def fromPointer (s : State) (c : Nat) (ex : Bool) (slot : Nat) : Nat :=
  (slot % 64 + 127 - (if ex then (core s c).rotE else (core s c).rotA)) % 64

/-- The slots of a core whose threads are READY: a thread whose wait is over is (R175). -/
def readySlots (s : State) (c : Nat) : List Nat :=
  ((residents s c).filter fun p => p.2.saving.isNone && (p.2.status == .ready ||
    (mayIssue p.2 && (tryIssue s p.1).isSome))).map Prod.fst

/-- Whether a slot is still within its turn spacing, so that the rotation may pass it over (R181, R182): a half picks once a
cycle, so since the slot's issue the half that made it has picked at most twice more before the pick at hand, or the other
half three times. (DESIGN CHOICE, log entry 1) -/
def justIssued (s : State) (c : Nat) (ex : Bool) (slot : Nat) : Bool :=
  let x := core s c
  match find x.issued (slot % 64) with
  | none => false
  | some i =>
    let since := fun (half : Bool) => if half then x.picksE - i.picksE else x.picksA - i.picksA
    let room := fun (half : Bool) => if half == i.ex then 3 else 4
    decide (since ex < room ex) && decide (since (!ex) ≤ room (!ex))

/-- Whether a slot's last issue came after another's: once the other may issue again, a slot that issued before it may as
well (R182). -/
def issuedAfter (s : State) (c k slot : Nat) : Bool :=
  match find (core s c).issued (k % 64), find (core s c).issued (slot % 64) with
  | some a, some b => decide (b.picksA + b.picksE < a.picksA + a.picksE)
  | _, _ => true

/-- R181: whether a half may pick a slot: no READY thread that is eligible for it comes before, from its pointer on.
(DESIGN CHOICE, log entry 1) -/
def mayPick (s : State) (slot : Nat) : Bool :=
  let c := coreOf slot
  match peek s slot with
  | none => true
  | some w =>
    let ex := executeHalf w
    (readySlots s c).all fun k =>
      decide (fromPointer s c ex slot ≤ fromPointer s c ex k) || (justIssued s c ex k && issuedAfter s c k slot) || (peek s k).map executeHalf != some ex

/-- R82, R185: a read stream of a resident thread asks for the element after those it holds, up to 8; an element that
fails a check, or that no translation of its port reaches, is left to its pop. (DESIGN CHOICE, log entry 12) -/
def readAhead (s : State) (slot q : Nat) : State :=
  let here := { s with cur := slot }
  match thr s slot, (thr s slot).bind fun t => find t.streams q with
  | some t, some st =>
    let n := elemSize st.esz
    let k := st.elems.length
    let eo := st.next + st.stride.signExtend 64 * word k
    let r := refAt t st.sg eo n
    let cl := cluster s (clusterOf (coreOf slot))
    let reached := r.kind != .glob || (cl.faulted.isEmpty && cl.held.isEmpty &&
      ((tlbFind cl.tlb cl.cid r.addr).map fun e => e.r).getD false)
    if st.kind != .read || decide (8 ≤ k) || decide (st.cnt ≤ k) || t.saving.isSome || t.status == .parked ||
        (addrTrap here t st.sg .load eo n n).isSome || !reached then s
    else
      let asked := setThr here slot { t with streams := put t.streams q { st with elems := st.elems ++ [.coming (s.nextTx + 1)] } }
      match startLoad (.stream q) r.addr [r] false asked with
      | .ok (_, s') => { s' with cur := s.cur }
      | .error _ => s
  | _, _ => s

/-- What the oracle asks for. A message does not overtake an earlier one of its channel (R49); a limit runs out only
while it runs; what comes from outside comes at any time. (DESIGN CHOICE, log entry 1) -/
def runPick (s : State) : Pick → Out
  | .issue slot => if mayPick s slot then issueSlot s slot else .next s
  | .readAhead slot q => .next (readAhead s slot q)
  | .due k =>
    match s.due[k]? with
    | some e => if enabled s e && mayOvertake s e (s.due.take k) then runEvent e { s with due := s.due.eraseIdx k } else .next s
    | none => .next s
  | .event e =>
    if s.timers.contains e then runEvent e (dropTimer s e)
    else if fromOutside s e then runEvent e s
    else .next s

/-! ### The order where the oracle says nothing -/

/-- The slots of a core whose threads may issue or trap now, in the order of a half's rotation. -/
def rotation (s : State) (c : Nat) (ex : Bool) : List Nat :=
  sortBy (fromPointer s c ex)
    (((residents s c).filter fun p => (mayIssue p.2 || mayTrap p.2) && halfOf s p.1 == ex).map Prod.fst)

/-- R181: the first slot of a half's rotation whose turn comes to something. -/
def pickHalf (s : State) (c : Nat) (ex : Bool) : Option Out := (rotation s c ex).findSome? (tryIssue s)

/-- The cores that hold threads that may issue or trap, from the one after a core, wrapping. -/
def coresAfter (s : State) (c : Nat) : List Nat :=
  let cs := ((s.threads.filter fun p => mayIssue p.2 || mayTrap p.2).map fun p => coreOf p.1).eraseDups
  cs.filter (fun k => decide (c < k)) ++ cs.filter fun k => decide (k ≤ c)

/-- R181: the two halves of a core pick in turn, the access half first (R180); then the next core.
(DESIGN CHOICE, log entry 1) -/
def runThreads (s : State) : Option Out :=
  let c := coreOf s.cur
  (if s.exHalf then pickHalf s c true else none).orElse fun _ =>
    (coresAfter s c).findSome? fun c => (pickHalf s c false).orElse fun _ => pickHalf s c true

/-- How many instructions issue before a limit runs out although threads are READY. (DESIGN CHOICE, log entry 1) -/
def limitTurns : Nat := 4096

/-- The oldest limit runs out, if one runs. (DESIGN CHOICE, log entry 11) -/
def runTimer (s : State) : Option Out :=
  match s.timers with
  | e :: es => some (runEvent e { s with timers := es, turns := 0 })
  | [] => none

/-- What moves where the oracle is silent: what is in flight, then the threads in rotation, then a limit that runs out; an
idle machine stays as it is. (DESIGN CHOICE, log entry 1) -/
def runDefault (s : State) : Out :=
  match takeEnabled s s.due with
  | some (e, es) => runEvent e { s with due := es }
  | none =>
    let late := if limitTurns ≤ s.turns then runTimer s else none
    let go := { s with turns := if s.timers.isEmpty then 0 else s.turns + 1 }
    (late.orElse fun _ => (runThreads go).orElse fun _ => runTimer s).getD (.next s)

/-! ### A program's word in place (log entry 1) -/

/-- A thread at the beginning of a program: slot 0 of core 0, its code through sg7 in the core's scratchpad.
(DESIGN CHOICE, log entry 1) -/
def fetcher (t : Thread) : Thread :=
  { t with regs := if t.regs.isEmpty then List.replicate 112 0 else t.regs, lsz := if t.lsz = 0 then 128 else t.lsz,
           segs := t.segs.take 7 ++ List.replicate (7 - t.segs.length) { s0 := 0, s1 := 0 } ++
             [{ s0 := word (7 * 2 ^ 55 + 2 * 2 ^ 52), s1 := word (2 ^ 18) }],
           pc := word (t.pc.toNat / 4 * 4 % 2 ^ 18), status := .ready, saving := none, pend := [] }

end Sys2Proof.Machine
end

