-- ==== Sys2Proof/Machine/Step.lean ====
section
/-! DEFINITION. One step of the package: one instruction of one thread, or one event, applied whole (R403). -/

namespace Sys2Proof.Machine

/-- One step: what the oracle `picks` asks for, else the fixed order; once the package has stopped its clocks only a
reset is left (R396). -/
def step (s : State) : Host.Outcome State Fault Refusal :=
  match s.picks with
  | p :: ps =>
    if s.pkg.stopped && p != .event .reset then .fault .clocksStopped else runPick { s with picks := ps } p
  | [] => if s.pkg.stopped then .fault .clocksStopped else runDefault s

/-- An instruction word placed where the next step fetches: a READY thread in slot 0 of core 0 that fetches from the
core's scratchpad, and that slot's issue next. It stands for the load of a program by a launch (log entry 1).
(DESIGN CHOICE, log entry 1) -/
def State.withFetchWord (s : State) (nbits w : Nat) : State :=
  let t := fetcher ((thr s 0).getD blank)
  let line := t.pc.toNat / 128
  let s := modCore (setThr s 0 t) 0 fun x =>
    { x with rotA := 63, rotE := 63, tags := x.tags.filter fun p => p.1 != line }
  { s with mem := writeBytes s.mem (corePlace 0 t.pc.toNat) (bytesOfWord (BitVec.ofNat 32 (w % 2 ^ nbits)))
           pkg := { s.pkg with stopped := false }
           picks := .issue 0 :: s.picks }

end Sys2Proof.Machine
end

