-- ==== Sys2Proof/Safety.lean ====
section
/-! DEFINITION. What counts as a safe run of the package, in the terms that claims use. -/

namespace Sys2Proof.Machine

/-- An outcome that is a next state. -/
def Outcome.isNext (o : Out) : Bool :=
  match o with
  | .next _ => true
  | .fault _ => false
  | .refused _ => false

/-- The storage of the package is in canonical form. -/
def State.memOk (s : State) : Prop := Memory.wf s.mem = true

/-- The machine is safe after k steps: it has neither stopped nor been refused a meaning, and its storage is in canonical
form. -/
def SafeFor (k : Nat) (s : State) : Prop := ∃ t, Host.Core.run Sys2Proof.core k s = .next t ∧ State.memOk t

/-! ### Words that claims use -/

/-- The current slot holds a thread that may issue. -/
def Issues (s : State) (t : Thread) : Prop := thr s s.cur = some t ∧ mayIssue t = true

/-- The windows, queues and streams that an instruction names pass R158 steps 5 and 6, and no register it names is
pending. -/
def Checked (us : List Use) (s : State) : Prop := checkOps us s = .ok ((), s)

/-- A source field reads a value, in whatever form it names, and leaves a state. -/
def Reads (r : Reg) (s : State) (x : Word) (s' : State) : Prop := src r s = .ok (x, s')

/-- A destination field takes a value, in whatever form it names, and leaves a state. -/
def Writes (r : Reg) (v : Word) (s s' : State) : Prop := dst r v s = .ok ((), s')

/-- A field that names nothing special: `zr`, or a window register that is in the window and not pending. -/
def Plain (t : Thread) (r : Reg) : Prop := r = 127 ∨ r.toNat < t.regs.length ∧ r.toNat < 112 ∧ busyX t r.toNat = false

/-- What such a field reads. -/
def valueOf (t : Thread) (r : Reg) : Word := if r.toNat < 112 then t.regs.getD r.toNat 0 else 0

/-- A thread that goes on after an instruction. -/
def goesOn (t : Thread) (pc : Word) : Thread := 
  { t with pc := pc, status := .ready, blk := [], landed := none, kept := [], pops := [] }

/-- Everything but the current slot's thread is as it was. -/
def OthersKept (s s' : State) : Prop := ∃ ts, s' = { s with threads := ts } ∧ ∀ k, k ≠ s.cur → find ts k = thr s k

/-- A thread differs from another only in its window registers, its pc, and what a wait held for it. -/
def OnlyRegs (t t' : Thread) : Prop :=
  t' = { t with regs := t'.regs, pc := t'.pc, status := t'.status, blk := t'.blk, landed := t'.landed, kept := t'.kept,
                pops := t'.pops }

/-- Nothing of the issuing thread waits elsewhere: no access of its own at the cluster's port, no touch for a basin fill. -/
def NothingWaits (s : State) : Prop :=
  awaitsEntry s s.cur = false ∧ ∀ t ∈ (cluster s (clusterOf (coreOf s.cur))).touches, t.who ≠ .slot s.cur

/-- A thread that has noted a value which its instruction has popped (R155). -/
def noted (t : Thread) (r : Reg) (v : Word) : Thread := { t with pops := t.pops ++ [(r, v)] }

end Sys2Proof.Machine
end

