-- ==== Sys2Proof/Certificates/Slice0/Obligations.lean ====
section
/-! DEFINITION. The statements for the provers, from the numbered rules of spec/. Operands are read and written as the
operand statements at the head say; an instruction that runs answers a next state, which each statement names. -/

open Sys2Proof Sys2Proof.Machine

/-! ### Encodings, steps and operands -/

/-- R158, R159: the words that the spec itself spells out, one or more of each group of majors, decode to the instructions
that it gives for them; a word of a reserved major is no instruction. -/
def Obligations.WordsSpelledOutInTheSpec : Prop :=
  decodeWord 0x00000000#32 = none ∧ decodeWord 0x04100026#32 = some (.div 2 0 1) ∧
  decodeWord 0x08181000#32 = some (.clz 3 1) ∧ decodeWord 0x0C380001#32 = some (.addi 7 0 1) ∧
  decodeWord 0x24183808#32 = some (.srai 3 3 8) ∧ decodeWord 0x30101207#32 = some (.bfx 2 1 16 7) ∧
  decodeWord 0x400FF005#32 = some (.beq 1 127 5) ∧ decodeWord 0x5BFFFFFC#32 = some (.jmp 0x3FFFFFC) ∧
  decodeWord 0x5C200003#32 = some (.call 4 3) ∧ decodeWord 0x60004000#32 = some (.jr 4) ∧
  decodeWord 0x981053FF#32 = some (.ldd 2 5 1 0x1FF) ∧ decodeWord 0xA4586800#32 = some (.stw 11 6 4 0) ∧
  decodeWord 0xAC106200#32 = some (.stqw 6 1 0) ∧ decodeWord 0xB0482219#32 = some (.lda 9 2 1 false .di 1) ∧
  decodeWord 0xB0082498#32 = some (.stl 1 2 2 false .di 0) ∧ decodeWord 0xB0000120#32 = some (.fence .pk) ∧
  decodeWord 0xB4403920#32 = some (.acas 8 3 false .cl .plain 0) ∧ decodeWord 0xBC206000#32 = some (.pref 4 6 0) ∧
  decodeWord 0xCC2050C3#32 = some (.vfmaF32 4 5 6 false) ∧ decodeWord 0xD0101327#32 = some (.vcvtE4m3F32 2 1 3 .rtz false) ∧
  decodeWord 0xD4106200#32 = some (.vld 2 6 1 false) ∧ decodeWord 0xD4184436#32 = some (.vgath 3 4 2 1 true) ∧
  decodeWord 0xE0101002#32 = some (.jwait 2 1) ∧ decodeWord 0xE4600080#32 = some (.spawn 12 0 4) ∧
  decodeWord 0xE8381041#32 = some (.send 7 1 2 1) ∧ decodeWord 0xEC402021#32 = some (.tcall 8 2 1 1) ∧
  decodeWord 0xF0180040#32 = some (.mfs 3 2)

/-- R153, R158: decoding the word of a well-formed instruction gives it back (of the rows that share a word, the first). -/
def Obligations.DecodeAfterEncode : Prop :=
  ∀ i w, i.wf = true → encode i = some w → decodeWord w = some i.decodedAs

/-- R158: no bit of a word is ignored: the word of the instruction that a word decodes to is that very word, and the
instruction is well formed. -/
def Obligations.EncodeAfterDecode : Prop :=
  ∀ w i, decodeWord w = some i → i.wf = true ∧ encode i = some w

/-- R23, R159, R181: a slot that its half may pick, whose thread may issue with no trap due first, and whose fetch gives a
word: the step runs the instruction that the word decodes to, and the half's pointer moves to the slot unless the instruction
must wait; a word that is no instruction traps ILLEGAL-INSTRUCTION with the word as TVAL (R158). -/
def Obligations.StepRunsDecodedInstruction : Prop :=
  ∀ s k ps t w s1, s.picks = .issue k :: ps → s.pkg.stopped = false → thr s k = some t → mayIssue t = true →
    mayTrap t = false → mayPick { s with picks := ps } k = true → fetch { s with picks := ps, cur := k } = .word w s1 →
    (∀ i s', decodeWord w = some i → exec i s1 = .next s' →
      step s = .next (if ((thr s' k).map fun t => retries t.status) = some true then s' else turn s' k w)) ∧
    (decodeWord w = none → s1.cur = k → step s =
      .next (turn (enterTrap s1 k 0x01 false (w.setWidth 64) 0 (self s1).pc) k w))

/-- R20, R23: a fetch through sg7 in a core's own scratchpad reads the four bytes at the program counter, little-endian. -/
def Obligations.FetchReadsAtProgramCounter : Prop :=
  ∀ s t, thr s s.cur = some t → (segOf t 7).kind = .core → bitOf (segOf t 7).s0 57 = true → t.pc.toNat % 4 = 0 →
    t.pc.toNat + 4 ≤ (segOf t 7).limit → t.landed = none →
    let a := corePlace (coreOf s.cur) ((segOf t 7).base + t.pc.toNat)
    absentWords s a 4 = [] → (∀ l ∈ linesOf a 4, othersFirst s (.slot s.cur) l = false) →
    ∃ w s1, fetch s = .word w s1 ∧ s1.mem = s.mem ∧ bytesOfWord w = readBytes s.mem a 4

/-- R83, R84, R86, R154, R184 to R186: the forms of an operand. A window register reads its value and takes what is written; `zr`
reads 0 and discards. `ld` pops the oldest value of the level's queue, `sd` appends a data word while no address waits for one,
`ib` pops the oldest entry of the core's inbox that no other thread's waiting instruction has read (log entry 48). A stream register takes the element that has come and advances the stream, which is
unbound after its last element. A value popped is noted; one that the instruction had popped before it parked is read
again (R155). -/
def Obligations.OperandForms : Prop :=
  (∀ r s t, thr s s.cur = some t → r.toNat < 112 → r.toNat < t.regs.length →
    Reads r s (t.regs.getD r.toNat 0) s ∧
    ∀ v, Writes r v s (setThr s s.cur { t with regs := t.regs.set r.toNat v })) ∧
  (∀ s v, Reads 127 s 0 s ∧ Writes 127 v s s) ∧
  (∀ s t tx v rest, thr s s.cur = some t → t.kept = [] → (queuesOf t t.level).ld = { tx := tx, val := some v } :: rest →
    Reads 124 s v (setThr s s.cur (noted (setQueues t t.level { queuesOf t t.level with ld := rest }) 124 v))) ∧
  (∀ s t v, thr s s.cur = some t → (queuesOf t t.level).addrs = [] →
    Writes 125 v s (setThr s s.cur (setQueues t t.level { queuesOf t t.level with sd := (queuesOf t t.level).sd ++ [v] }))) ∧
  (∀ s t e rest, thr s s.cur = some t → t.kept = [] →
    ((siblings s).flatMap fun p => ibNotes p.2).foldl List.erase (Machine.core s (coreOf s.cur)).inbox = e :: rest →
    (Machine.core s (coreOf s.cur)).ibWait = [] → (Machine.core s (coreOf s.cur)).inboxOver = [] → fld e 63 60 ≠ 1 →
    Reads 126 s e (setThr (modCore s (coreOf s.cur) fun x => { x with inbox := x.inbox.erase e }) s.cur (noted t 126 e))) ∧
  (∀ s t (r : Reg) st v more, thr s s.cur = some t → t.kept = [] → 112 ≤ r.toNat → r.toNat ≤ 123 →
    find t.streams (r.toNat - 112) = some st → st.kind = .read → st.elems = .here v :: more →
    let x : Word := if st.esz = 1 then (v.setWidth 32).signExtend 64 else v
    Reads r s x (setThr s s.cur (noted { t with
      streams := if st.cnt - 1 = 0 then del t.streams (r.toNat - 112)
        else put t.streams (r.toNat - 112)
          { st with elems := more, next := st.next + st.stride.signExtend 64, cnt := st.cnt - 1 } } r x))) ∧
  (∀ s t (r : Reg) v rest, thr s s.cur = some t → 112 ≤ r.toNat → r.toNat ≤ 124 ∨ r = 126 → t.kept = (r, v) :: rest →
    Reads r s v (setThr s s.cur { t with kept := rest }))

namespace Sys2Proof.Claims

/-- The scalar instructions on two sources whose destination is only written. -/
def threes : List (Reg → Reg → Reg → Instr) :=
  [.add, .sub, .mul, .mulh, .mulhu, .mulhsu, .div, .divu, .rem, .remu, .and, .or, .xor, .andn, .orn, .xnor, .shl, .shr, .sra,
    .rol, .ror, .min, .max, .minu, .maxu, .seq, .sne, .slt, .sltu, .sle, .sleu, .hash]

/-- The vector instructions on two sources. -/
def vectorThrees : List (Reg → Reg → Reg → Bool → Instr) :=
  [.vaddI32, .vsubI32, .vmulI32, .vmulhI32, .vminI32, .vmaxI32, .vminuI32, .vmaxuI32, .vandI32, .vorI32, .vxorI32, .vshlI32,
    .vshrI32, .vsraI32, .vaddsI32, .vsubsI32, .vaddI8x4, .vsubI8x4, .vaddsI8x4, .vsubsI8x4, .vminI8x4, .vmaxI8x4, .vminuI8x4,
    .vmaxuI8x4, .vdot4, .vdot4su, .vabsdI8x4, .vavgI8x4, .vaddBf16x2, .vsubBf16x2, .vmulBf16x2, .vfmaBf16x2, .vminBf16x2,
    .vmaxBf16x2, .vaddF32, .vsubF32, .vmulF32, .vfmaF32, .vfmsF32, .vminF32, .vmaxF32, .vdot2, .vperm]

/-- A scalar field that names a window register outside the thread's window (R154). -/
def OutX (t : Thread) (r : Reg) : Prop := r.toNat < 112 ∧ t.regs.length ≤ r.toNat
/-- A group that reaches the window's size (R156). -/
def OutGroup (t : Thread) (r : Reg) (n : Nat) : Prop := t.regs.length < r.toNat + n
/-- The first number of such a group that is out of the window. -/
def firstOut (t : Thread) (r : Reg) : Word := BitVec.ofNat 64 (max r.toNat t.regs.length)
/-- A vector number at or beyond the lane window (R157). -/
def OutV (t : Thread) (v : Reg) : Prop := t.lsz ≤ v.toNat

/-- A source that cannot be read, with the code of its trap: a stream register with no read or arrival stream bound, or `ld`
with nothing in it and nothing on its way (R85, R154). -/
def NoSource (t : Thread) (r : Reg) (code : Nat) : Prop :=
  (112 ≤ r.toNat ∧ r.toNat ≤ 123 ∧ code = 0x1B ∧ ∀ st, find t.streams (r.toNat - 112) = some st → st.kind = .write ∨ st.cnt = 0) ∨
  (r = 124 ∧ code = 0x19 ∧ (queuesOf t t.level).ld = [])

/-- A destination that cannot be written: a stream register with no write stream bound, or `sd` with 16 words unpaired. -/
def NoDest (t : Thread) (r : Reg) (code : Nat) : Prop :=
  (112 ≤ r.toNat ∧ r.toNat ≤ 123 ∧ code = 0x1B ∧ ∀ st, find t.streams (r.toNat - 112) = some st → st.kind ≠ .write ∨ st.cnt = 0) ∨
  (r = 125 ∧ code = 0x19 ∧ 16 ≤ (queuesOf t t.level).sd.length)

/-- An instruction traps exactly: nothing of it has taken effect, and its own address is saved. -/
def Traps (i : Instr) (s : State) (t : Thread) (code : Nat) (v : Word) : Prop :=
  exec i s = .next (enterTrap s s.cur code false v 0 t.pc)

end Sys2Proof.Claims

open Sys2Proof.Claims

/-- R154, R156 to R158: a register, group or vector register outside the thread's windows traps ILLEGAL-REGISTER exactly, with
its number, the first number of the group that is out, or 0x100 over the vector number, before anything is popped, in the
field order a, b, d. Then a stream register with no stream of its direction traps STREAM-STATE, and a read of an empty `ld`
or a write of a full `sd` QUEUE-ORDER, in the same order. -/
def Obligations.WindowChecksTrap : Prop :=
  (∀ i ∈ threes ++ [.sel], ∀ d a b s t, Issues s t →
    (OutX t a → Traps (i d a b) s t 0x02 (a.setWidth 64)) ∧
    (¬ OutX t a → OutX t b → Traps (i d a b) s t 0x02 (b.setWidth 64)) ∧
    (¬ OutX t a → ¬ OutX t b → OutX t d → Traps (i d a b) s t 0x02 (d.setWidth 64))) ∧
  (∀ i ∈ vectorThrees, ∀ d a b p s t, Issues s t →
    (OutV t a → Traps (i d a b p) s t 0x02 (0x100 + a.setWidth 64)) ∧
    (¬ OutV t a → OutV t b → Traps (i d a b p) s t 0x02 (0x100 + b.setWidth 64)) ∧
    (¬ OutV t a → ¬ OutV t b → OutV t d → Traps (i d a b p) s t 0x02 (0x100 + d.setWidth 64))) ∧
  (∀ (r : Reg) sg s t, Issues s t → OutGroup t r 2 →
    Traps (.segld sg r) s t 0x02 (firstOut t r) ∧ Traps (.segrd r sg) s t 0x02 (firstOut t r)) ∧
  (∀ (d a : Reg) s t, Issues s t →
    (OutGroup t a 4 → Traps (.jsub d a) s t 0x02 (firstOut t a)) ∧
    (¬ OutGroup t a 4 → OutX t d → Traps (.jsub d a) s t 0x02 (d.setWidth 64))) ∧
  (∀ (d a b : Reg) (n : BitVec 2) s t, Issues s t →
    (OutGroup t a (n.toNat + 1) → Traps (.tcall d a b n) s t 0x02 (firstOut t a)) ∧
    (¬ OutGroup t a (n.toNat + 1) → OutX t b → Traps (.tcall d a b n) s t 0x02 (b.setWidth 64)) ∧
    (¬ OutGroup t a (n.toNat + 1) → ¬ OutX t b → OutGroup t d 2 → Traps (.tcall d a b n) s t 0x02 (firstOut t d))) ∧
  (∀ i ∈ threes, ∀ d a b s t code, Issues s t → t.kept = [] → ¬ OutX t a → ¬ OutX t b → ¬ OutX t d →
    (NoSource t a code → Traps (i d a b) s t code (a.setWidth 64)) ∧
    (Plain t a → NoSource t b code → Traps (i d a b) s t code (b.setWidth 64)) ∧
    (Plain t a → Plain t b → NoDest t d code → Traps (i d a b) s t code (d.setWidth 64)))

/-! ### Scalar instructions (spec/12_isa_scalar.md) -/

namespace Sys2Proof.Claims

/-- An instruction of two sources, read in the order a, b, leaves f of them in d and goes on. -/
def Two (i : Reg → Reg → Reg → Instr) (f : Word → Word → Word) : Prop :=
  ∀ d a b s t x y s1 s2 s3, Issues s t → Checked [.src a, .src b, .dst d] s → Reads a s x s1 → Reads b s1 y s2 →
    Writes d (f x y) s2 s3 → exec (i d a b) s = .next (finish s3 .seq)

/-- An instruction of one source leaves a value that stands in a relation to it in d and goes on. -/
def One (i : Reg → Reg → Instr) (R : Word → Word → Prop) : Prop :=
  ∀ d a s t x v s1 s2, Issues s t → Checked [.src a, .dst d] s → Reads a s x s1 → R x v → Writes d v s1 s2 →
    exec (i d a) s = .next (finish s2 .seq)

/-- A division's result is on its way: one more pending result of the thread, and its delivery in flight. -/
def onItsWay (s : State) (r : Nat) (v : Word) : State :=
  post (tick (modSelf s fun t => { t with results := t.results ++ [{ tx := s.nextTx, reg := some (r, v), vec := none }] }))
    (.operationResult s.cur s.nextTx)

/-- A division sends f of its sources on its way to d, or drops it for `zr`, and goes on. -/
def Later (i : Reg → Reg → Reg → Instr) (f : Word → Word → Word) : Prop :=
  ∀ d a b s t x y s1 s2, Issues s t → Checked [.src a, .src b, .dst d] s → Reads a s x s1 → Reads b s1 y s2 →
    (d.toNat < 112 → exec (i d a b) s = .next (finish (onItsWay s2 d.toNat (f x y)) .seq)) ∧
    (d = 127 → exec (i d a b) s = .next (finish s2 .seq))

/-- A condition as a register value. -/
def bit (p : Prop) [Decidable p] : Word := if p then 1 else 0

/-- A word whose bits p to p + n - 1 are those of v from bit 0 up, the others those of c. -/
def Inserted (c v r : Word) (p n : Nat) : Prop :=
  ∀ k < 64, r.getLsbD k = if p ≤ k ∧ k < p + n then v.getLsbD (k - p) else c.getLsbD k

end Sys2Proof.Claims

/-- R190: the two-source instructions of major 0x01 but the divisions and SEL. -/
def Obligations.TwoSourceResults : Prop :=
  Two .add (fun s t => s + t) ∧ Two .sub (fun s t => s - t) ∧ Two .mul (fun s t => s * t) ∧
  Two .mulh (fun s t => BitVec.ofInt 64 (s.toInt * t.toInt / 2 ^ 64)) ∧
  Two .mulhu (fun s t => BitVec.ofNat 64 (s.toNat * t.toNat / 2 ^ 64)) ∧
  Two .mulhsu (fun s t => BitVec.ofInt 64 (s.toInt * (t.toNat : Int) / 2 ^ 64)) ∧
  Two .and (fun s t => s &&& t) ∧ Two .or (fun s t => s ||| t) ∧ Two .xor (fun s t => s ^^^ t) ∧
  Two .andn (fun s t => s &&& ~~~t) ∧ Two .orn (fun s t => s ||| ~~~t) ∧ Two .xnor (fun s t => ~~~(s ^^^ t)) ∧
  Two .shl (fun s t => s <<< (t &&& 63)) ∧ Two .shr (fun s t => s >>> (t &&& 63)) ∧
  Two .sra (fun s t => s.sshiftRight (t &&& 63).toNat) ∧
  Two .rol (fun s t => s.rotateLeft (t &&& 63).toNat) ∧ Two .ror (fun s t => s.rotateRight (t &&& 63).toNat) ∧
  Two .min (fun s t => if t.toInt < s.toInt then t else s) ∧ Two .max (fun s t => if s.toInt < t.toInt then t else s) ∧
  Two .minu (fun s t => if t.toNat < s.toNat then t else s) ∧ Two .maxu (fun s t => if s.toNat < t.toNat then t else s) ∧
  Two .seq (fun s t => bit (s = t)) ∧ Two .sne (fun s t => bit (s ≠ t)) ∧
  Two .slt (fun s t => bit (s.toInt < t.toInt)) ∧ Two .sltu (fun s t => bit (s.toNat < t.toNat)) ∧
  Two .sle (fun s t => bit (s.toInt ≤ t.toInt)) ∧ Two .sleu (fun s t => bit (s.toNat ≤ t.toNat)) ∧
  Two .hash (fun s t =>
    let h := s + t * 0x9E3779B97F4A7C15
    let h := (h ^^^ (h >>> (30 : Nat))) * 0xBF58476D1CE4E5B9
    let h := (h ^^^ (h >>> (27 : Nat))) * 0x94D049BB133111EB
    h ^^^ (h >>> (31 : Nat)))

/-- R191, R198: the divisions with their two corner cases. -/
def Obligations.DivisionResults : Prop :=
  Later .div (fun s t => if t = 0 then BitVec.allOnes 64 else s.sdiv t) ∧
  Later .divu (fun s t => if t = 0 then BitVec.allOnes 64 else s / t) ∧
  Later .rem (fun s t => if t = 0 then s else s.srem t) ∧
  Later .remu (fun s t => if t = 0 then s else s % t)

/-- R192, R194, R195, R197: the one-source instructions. -/
def Obligations.OneSourceResults : Prop :=
  One .clz (fun s v => s = 0 ∧ v = 64 ∨
    ∃ n < 64, s.getLsbD (63 - n) = true ∧ (∀ k < n, s.getLsbD (63 - k) = false) ∧ v = BitVec.ofNat 64 n) ∧
  One .ctz (fun s v => s = 0 ∧ v = 64 ∨
    ∃ n < 64, s.getLsbD n = true ∧ (∀ k < n, s.getLsbD k = false) ∧ v = BitVec.ofNat 64 n) ∧
  One .popc (fun s v => v = BitVec.ofNat 64 ((List.range 64).countP s.getLsbD)) ∧
  One .brev (fun s v => ∀ k < 64, v.getLsbD k = s.getLsbD (63 - k)) ∧
  One .bswap (fun s v => ∀ k < 8, v.extractLsb' (8 * k) 8 = s.extractLsb' (8 * (7 - k)) 8) ∧
  One .sextb (fun s v => v = (s.setWidth 8).signExtend 64) ∧ One .sexth (fun s v => v = (s.setWidth 16).signExtend 64) ∧
  One .sextw (fun s v => v = (s.setWidth 32).signExtend 64) ∧ One .zextb (fun s v => v = (s.setWidth 8).setWidth 64) ∧
  One .zexth (fun s v => v = (s.setWidth 16).setWidth 64) ∧ One .zextw (fun s v => v = (s.setWidth 32).setWidth 64) ∧
  (∀ i, One (.addi · · i) (fun s v => v = s + i.signExtend 64)) ∧ (∀ i, One (.andi · · i) (fun s v => v = s &&& i.signExtend 64)) ∧
  (∀ i, One (.ori · · i) (fun s v => v = s ||| i.signExtend 64)) ∧ (∀ i, One (.xori · · i) (fun s v => v = s ^^^ i.signExtend 64)) ∧
  (∀ i, One (.slti · · i) (fun s v => v = bit (s.toInt < i.toInt))) ∧
  (∀ i, One (.sltiu · · i) (fun s v => v = bit (s.toNat < (i.signExtend 64).toNat))) ∧
  (∀ k, One (.shli · · k) (fun s v => v = s <<< k.toNat)) ∧ (∀ k, One (.shri · · k) (fun s v => v = s >>> k.toNat)) ∧
  (∀ k, One (.srai · · k) (fun s v => v = s.sshiftRight k.toNat)) ∧
  (∀ k, One (.rori · · k) (fun s v => v = s.rotateRight k.toNat)) ∧
  (∀ p w, One (.bfx · · p w) (fun s v => Inserted 0 (s >>> p.toNat) v 0 (w.toNat + 1)))

/-- R190, R196, R197: SEL, MOVI, MOVH and BFI, the forms that read d or read nothing. -/
def Obligations.DestinationReaders : Prop :=
  (∀ d a b s t x y c s1 s2 s3 s4, Issues s t → Checked [.src a, .src b, .both d] s → Reads a s x s1 → Reads b s1 y s2 →
    Reads d s2 c s3 → Writes d (if c = 0 then y else x) s3 s4 → exec (.sel d a b) s = .next (finish s4 .seq)) ∧
  (∀ d i s t s1, Issues s t → Checked [.dst d] s → Writes d (i.signExtend 64) s s1 →
    exec (.movi d i) s = .next (finish s1 .seq)) ∧
  (∀ d q v s t c r s1 s2, Issues s t → Checked [.both d] s → Reads d s c s1 →
    Inserted c (v.setWidth 64) r (16 * q.toNat) 16 → Writes d r s1 s2 → exec (.movh d q v) s = .next (finish s2 .seq)) ∧
  (∀ d a p w s t x c r s1 s2 s3, Issues s t → Checked [.src a, .both d] s → Reads a s x s1 → Reads d s1 c s2 →
    Inserted c x r p.toNat (w.toNat + 1) → Writes d r s2 s3 → exec (.bfi d a p w) s = .next (finish s3 .seq))

namespace Sys2Proof.Claims

/-- A conditional branch tests its sources, read in the order a, b. -/
def Tests (i : Reg → Reg → BitVec 12 → Instr) (p : Word → Word → Prop) : Prop :=
  ∀ a b o s t x y s1 s2, Issues s t → Checked [.src a, .src b] s → Reads a s x s1 → Reads b s1 y s2 →
    (p x y → exec (i a b o) s = .next (finish s2 (.goto (t.pc + o.signExtend 64 * 4)))) ∧
    (¬ p x y → exec (i a b o) s = .next (finish s2 .seq))

end Sys2Proof.Claims

/-- R199 to R203: branches, jumps and calls. -/
def Obligations.BranchesAndCalls : Prop :=
  Tests .beq (fun s t => s = t) ∧ Tests .bne (fun s t => s ≠ t) ∧ Tests .blt (fun s t => s.toInt < t.toInt) ∧
  Tests .bge (fun s t => t.toInt ≤ s.toInt) ∧ Tests .bltu (fun s t => s.toNat < t.toNat) ∧
  Tests .bgeu (fun s t => t.toNat ≤ s.toNat) ∧
  (∀ i s t, Issues s t → exec (.jmp i) s = .next (finish s (.goto (t.pc + i.signExtend 64 * 4)))) ∧
  (∀ d i s t s1, Issues s t → Checked [.dst d] s → Writes d (t.pc + 4) s s1 →
    exec (.call d i) s = .next (finish s1 (.goto (t.pc + i.signExtend 64 * 4)))) ∧
  (∀ a s t x s1, Issues s t → Checked [.src a] s → Reads a s x s1 → exec (.jr a) s = .next (finish s1 (.goto x))) ∧
  (∀ d a s t x s1 s2, Issues s t → Checked [.src a, .dst d] s → Reads a s x s1 → Writes d (t.pc + 4) s1 s2 →
    exec (.callr d a) s = .next (finish s2 (.goto x))) ∧
  (∀ d i s t x s1 s2, Issues s t → Checked [.both d] s → Reads d s x s1 → Writes d (x - 1) s1 s2 →
    (x ≠ 1 → exec (.bdnz d i) s = .next (finish s2 (.goto (t.pc + i.signExtend 64 * 4)))) ∧
    (x = 1 → exec (.bdnz d i) s = .next (finish s2 .seq)))

namespace Sys2Proof.Claims

/-- What an instruction on plain operands leaves: the next state, in which everything but the issuing thread's pc and
window register d is as it was. -/
def KeepsAllBut (i : Instr) (d : Option Reg) (s : State) (t : Thread) : Prop :=
  NothingWaits s → ∃ s' t', exec i s = .next s' ∧ OthersKept s s' ∧ thr s' s.cur = some t' ∧ OnlyRegs t t' ∧ t'.status = .ready ∧
    t'.regs.length = t.regs.length ∧ ∀ k, (∀ r, d = some r → k ≠ r.toNat) → t'.regs[k]? = t.regs[k]?

end Sys2Proof.Claims

/-- R190 to R203: with plain operands a scalar instruction that is no division changes its destination and the pc, and
nothing else: no other register, no flag, no special register, no other thread, no byte of storage. -/
def Obligations.ScalarFrame : Prop :=
  (∀ i ∈ ([.add, .sub, .mul, .mulh, .mulhu, .mulhsu, .and, .or, .xor, .andn, .orn, .xnor, .shl, .shr, .sra, .rol, .ror, .min,
      .max, .minu, .maxu, .seq, .sne, .slt, .sltu, .sle, .sleu, .sel, .hash] : List (Reg → Reg → Reg → Instr)),
    ∀ d a b s t, Issues s t → Plain t a → Plain t b → Plain t d → KeepsAllBut (i d a b) (some d) s t) ∧
  (∀ i ∈ ([.clz, .ctz, .popc, .brev, .bswap, .sextb, .sexth, .sextw, .zextb, .zexth, .zextw, .callr] : List (Reg → Reg → Instr)),
    ∀ d a s t, Issues s t → Plain t a → Plain t d → KeepsAllBut (i d a) (some d) s t) ∧
  (∀ i ∈ ([.addi, .andi, .ori, .xori, .slti, .sltiu] : List (Reg → Reg → BitVec 12 → Instr)),
    ∀ d a k s t, Issues s t → Plain t a → Plain t d → KeepsAllBut (i d a k) (some d) s t) ∧
  (∀ i ∈ ([.shli, .shri, .srai, .rori] : List (Reg → Reg → BitVec 6 → Instr)),
    ∀ d a k s t, Issues s t → Plain t a → Plain t d → KeepsAllBut (i d a k) (some d) s t) ∧
  (∀ i ∈ ([.bfx, .bfi] : List (Reg → Reg → BitVec 6 → BitVec 5 → Instr)),
    ∀ d a p w s t, Issues s t → Plain t a → Plain t d → KeepsAllBut (i d a p w) (some d) s t) ∧
  (∀ i ∈ ([.movi, .call, .bdnz] : List (Reg → BitVec 19 → Instr)),
    ∀ d k s t, Issues s t → Plain t d → KeepsAllBut (i d k) (some d) s t) ∧
  (∀ d q v s t, Issues s t → Plain t d → KeepsAllBut (.movh d q v) (some d) s t) ∧
  (∀ i ∈ ([.beq, .bne, .blt, .bge, .bltu, .bgeu] : List (Reg → Reg → BitVec 12 → Instr)),
    ∀ a b k s t, Issues s t → Plain t a → Plain t b → KeepsAllBut (i a b k) none s t) ∧
  (∀ a s t, Issues s t → Plain t a → KeepsAllBut (.jr a) none s t) ∧
  (∀ k s t, Issues s t → KeepsAllBut (.jmp k) none s t)

/-! ### Memory instructions (spec/13_isa_memory.md) -/

namespace Sys2Proof.Claims

/-- A range of storage that the issuing thread may touch at once: none of its lanes awaits a result, no word of it is absent
from a basin or poisoned, no landed line is kept for the thread, and no earlier touch has landed bytes to take. -/
def Touchable (s : State) (a n : Nat) : Prop :=
  laneBusy s a n = false ∧ absentWords s a n = [] ∧ poisoned s a n = false ∧ (self s).landed = none ∧
  ∀ l ∈ linesOf a n, othersFirst s (.slot s.cur) l = false

/-- R20: an access of a class at an effective offset passes every check. -/
def Passes (s : State) (sg : BitVec 3) (c : Cls) (eo : Word) (n : Nat) : Prop :=
  addrTrap s (self s) sg.toNat c eo n n = none

/-- The kind and address that an offset in a segment names. -/
def kindAt (s : State) (sg : BitVec 3) : Kind := (segOf (self s) sg.toNat).kind
def addrAt (s : State) (sg : BitVec 3) (eo : Word) : Nat := (segOf (self s) sg.toNat).base + eo.toNat
/-- The storage place that it names, for the kinds that are accessed at issue. -/
def placeAt (s : State) (sg : BitVec 3) (eo : Word) : Nat :=
  place (coreOf s.cur) (kindAt s sg) (segOf (self s) sg.toNat).tgt (addrAt s sg eo)

/-- R207: n bytes, little-endian, extended to a register value. -/
def loaded (sgn : Bool) (n : Nat) (bs : List Byte) : Word :=
  if sgn then (BitVec.ofNat (8 * n) (leNat bs)).signExtend 64 else BitVec.ofNat 64 (leNat bs)

/-- A load of n bytes from a kind accessed at issue: the register has the value, the thread goes on, no byte of storage and
no other thread changes. -/
def LoadsNow (i : Instr) (us : List Use) (r a : Reg) (sg : BitVec 3) (n : Nat) (sgn : Bool) (eo : Word → Word) : Prop :=
  ∀ s t x s1, Issues s t → Checked us s → Reads a s x s1 → Passes s1 sg .load (eo x) n →
    atIssue (kindAt s1 sg) = true → Touchable s1 (placeAt s1 sg (eo x)) n → (self s1).outs = [] →
    (self s1).regs.length ≤ 112 → NothingWaits s1 →
    ∃ s', exec i s = .next s' ∧ s'.mem = s1.mem ∧
      thr s' s.cur = some (goesOn (wrReg (self s1) r.toNat (loaded sgn n (readBytes s1.mem (placeAt s1 sg (eo x)) n)))
        ((self s1).pc + 4)) ∧ ∀ k, k ≠ s.cur → thr s' k = thr s1 k

/-- The offset of the M format: x[a] plus the scaled signed offset (R20). -/
def scaled (o : BitVec 9) (n : Nat) (x : Word) : Word := x + o.signExtend 64 * BitVec.ofNat 64 n

/-- A scalar load. -/
def LoadForm (i : Reg → Reg → BitVec 3 → BitVec 9 → Instr) (n : Nat) (sgn : Bool) : Prop :=
  ∀ (r a : Reg) (sg : BitVec 3) (o : BitVec 9), r.toNat < 112 ∨ r = 127 →
    LoadsNow (i r a sg o) [.src a, .dst r] r a sg n sgn (scaled o n)

end Sys2Proof.Claims

/-- R20, R78, R207, R213: loads and load-acquires from LANE, CORE and CLUS. -/
def Obligations.LoadsPerformedAtIssue : Prop :=
  LoadForm .ldb 1 true ∧ LoadForm .ldbu 1 false ∧ LoadForm .ldh 2 true ∧ LoadForm .ldhu 2 false ∧ LoadForm .ldw 4 true ∧
  LoadForm .ldwu 4 false ∧ LoadForm .ldd 8 false ∧
  ∀ (r a : Reg) sg z c (k : BitVec 3), r.toNat < 112 ∨ r = 127 →
    LoadsNow (.lda r a sg z c k) [.src a, .dst r] r a sg (if z then 8 else 4) false
      (fun x => x + BitVec.ofNat 64 (k.toNat * if z then 8 else 4))

namespace Sys2Proof.Claims

/-- A store of the low n bytes of a value to a kind accessed at issue: exactly the n bytes at the address change, the thread
goes on, no other thread changes. -/
def StoresNow (i : Instr) (us : List Use) (r a : Reg) (sg : BitVec 3) (n : Nat) (eo : Word → Word) (sc : Option Scope) : Prop :=
  ∀ s t x v s1 s2, Issues s t → Checked us s → Reads a s x s1 → Reads r s1 v s2 → Passes s2 sg .store (eo x) n →
    atIssue (kindAt s2 sg) = true → Touchable s2 (placeAt s2 sg (eo x)) n → (self s2).outs.any (fun o => o.acq) = false →
    (∀ c, sc = some c → release c s2 = .ok ((), s2)) → NothingWaits s2 →
    let p := placeAt s2 sg (eo x)
    ∃ s', exec i s = .next s' ∧ (∀ b, b < p ∨ p + n ≤ b → memByte s'.mem b = memByte s2.mem b) ∧
      (∀ j < n, memByte s'.mem (p + j) = v.extractLsb' (8 * j) 8) ∧
      thr s' s.cur = some (goesOn (self s2) ((self s2).pc + 4)) ∧ ∀ k, k ≠ s.cur → thr s' k = thr s2 k

/-- A scalar store. -/
def StoreForm (i : Reg → Reg → BitVec 3 → BitVec 9 → Instr) (n : Nat) : Prop :=
  ∀ r a sg o, StoresNow (i r a sg o) [.src a, .src r] r a sg n (scaled o n) none

end Sys2Proof.Claims

/-- R20, R78, R102, R207, R213: stores and store-releases to LANE, CORE and CLUS. -/
def Obligations.StoresPerformedAtIssue : Prop :=
  StoreForm .stb 1 ∧ StoreForm .sth 2 ∧ StoreForm .stw 4 ∧ StoreForm .std 8 ∧
  ∀ r a sg z c (k : BitVec 3), StoresNow (.stl r a sg z c k) [.src a, .src r] r a sg (if z then 8 else 4)
    (fun x => x + BitVec.ofNat 64 (k.toNat * if z then 8 else 4)) (some c)

namespace Sys2Proof.Claims

/-- The access of a buffered load or store, as the core makes it. -/
def sentAccess (s : State) (sg : BitVec 3) (eo : Word) (op : MemOp) (sc : Scope) : Access :=
  { tx := s.nextTx, agent := .load s.cur, core := coreOf s.cur, cid := cidOf s (coreOf s.cur), kind := kindAt s sg,
    tgt := (segOf (self s) sg.toNat).tgt, addr := addrAt s sg eo, op := op, scope := sc, xlated := false, phys := 0,
    home := none, cache := 0, common := false, tracked := false, handle := none, m := (self s).level == .m }

/-- A load from a buffered kind is sent: one more outstanding load of the thread, whose value comes later. -/
def LoadsLaterFrom (i : Instr) (r a : Reg) (sg : BitVec 3) (n : Nat) (sgn acq : Bool) (eo : Word → Word) : Prop :=
  ∀ s t x s1, r.toNat < 112 ∨ r = 127 → Issues s t → Checked [.src a, .dst r] s → Reads a s x s1 →
    Passes s1 sg .load (eo x) n → atIssue (kindAt s1 sg) = false → (self s1).outs = [] →
    forward s1 s.cur (refAt (self s1) sg.toNat (eo x) n) = .none →
    let acc := sentAccess s1 sg (eo x) (.read n) .th
    let near := refLocal (coreOf s.cur) (refAt (self s1) sg.toNat (eo x) n)
    ∃ o', o'.dest = (if r.toNat < 112 then .x r.toNat n sgn else .discard) ∧ o'.acq = acq ∧ o'.atom = false ∧
      o'.pieces = [{ acc := acc, lanes := [], reply := none, fixed := false, near := near }] ∧
      let s2 := send (tick (modSelf (tick s1) fun t => { t with outs := [o'] })) acc
      exec i s = .next (finish (deliverAll s2 s2.cur) .seq)

/-- A scalar load from a buffered kind. -/
def LoadsLater (i : Reg → Reg → BitVec 3 → BitVec 9 → Instr) (n : Nat) (sgn : Bool) : Prop :=
  ∀ r a sg o, LoadsLaterFrom (i r a sg o) r a sg n sgn false (scaled o n)

/-- A store to a buffered kind enters the store buffer behind the others, and its drain is due (R87). -/
def StoresLaterTo (i : Instr) (r a : Reg) (sg : BitVec 3) (n : Nat) (eo : Word → Word) (sc : Option Scope) : Prop :=
  ∀ s t x v s1 s2, Issues s t → Checked [.src a, .src r] s → Reads a s x s1 → Reads r s1 v s2 →
    Passes s2 sg .store (eo x) n → atIssue (kindAt s2 sg) = false → (self s2).outs = [] → holds (self s2) = false →
    (∀ c, sc = some c → release c s2 = .ok ((), s2)) → (Machine.core s2 (coreOf s.cur)).sb.length < 32 →
    exec i s = .next (finish (enterBuffer s2 (coreOf s.cur)
      [{ slot := s.cur, kind := kindAt s2 sg, tgt := (segOf (self s2) sg.toNat).tgt,
         words := [(addrAt s2 sg (eo x), n, v)], flush := false, tx := s2.nextTx, swid := (self s2).swid,
         m := (self s2).level == .m }]) .seq)

/-- A scalar store to a buffered kind. -/
def StoresLater (i : Reg → Reg → BitVec 3 → BitVec 9 → Instr) (n : Nat) : Prop :=
  ∀ r a sg o, StoresLaterTo (i r a sg o) r a sg n (scaled o n) none

/-- An atomic on a buffered kind is sent once the thread's stores have left the buffer, nothing die-local of its core awaits
an answer, and a release's waits are over: one more outstanding access of the thread, whose old value comes later (R90, R107,
R214). -/
def AtomicLater (i : Reg → Reg → Bool → Scope → AOrd → BitVec 2 → Instr) (us : Reg → Reg → List Use) (op : Aop)
    (second : State → Reg → Word) : Prop :=
  ∀ (d a : Reg) z c r (g : BitVec 2) s t eo s1, let n := if z then 8 else 4
    d.toNat < 112 ∨ d = 127 → Issues s t → Checked (us d a) s → Reads a s eo s1 → Passes s1 (g.setWidth 3) .atomic eo n →
    atIssue (kindAt s1 (g.setWidth 3)) = false → (self s1).outs = [] → ownBuffered s1 s1.cur = false →
    unackedLocal s1 (coreOf s1.cur) = [] → atomicOut s1 (coreOf s1.cur) = false → (self s1).regs.length ≤ 112 →
    (r = .rel ∨ r = .ar → release c s1 = .ok ((), s1)) →
    let acc := sentAccess s1 (g.setWidth 3) eo (.atomic op n (valueOf (self s1) d) (second s1 d)) c
    ∃ o', o'.dest = (if d.toNat < 112 then .x d.toNat n true else .discard) ∧ o'.atom = true ∧
      (o'.acq = true ↔ r = .acq ∨ r = .ar) ∧ (∃ p, o'.pieces = [p] ∧ p.acc = acc ∧ p.lanes = [] ∧ p.reply = none) ∧
      exec (i d a z c r g) s = .next (finish (send (modSelf (tick (tick s1)) fun t => { t with outs := [o'] }) acc) .seq)

/-- An atomic of one operand register on a buffered kind. -/
def AtomicOneLater (i : Reg → Reg → Bool → Scope → AOrd → BitVec 2 → Instr) (op : Aop) : Prop :=
  AtomicLater i (fun d a => [.src a, .both d]) op fun _ _ => 0

/-- The entries of a core's buffer, without what the core knows of the homing of the one at its head (R98). -/
def entriesOf (s : State) (c : Nat) : List SbEntry := (Machine.core s c).sb.map fun e => { e with near := none }

end Sys2Proof.Claims

/-- R78, R87, R89, R90, R101, R102, R107, R182, R207, R213, R214: loads, load-acquires and atomics on CHIP, GLOB, REMC and DOM
are sent towards where they are performed; stores and store-releases there enter the core's store buffer. No byte of storage
changes at issue. -/
def Obligations.BufferedLoadsAndStores : Prop :=
  LoadsLater .ldb 1 true ∧ LoadsLater .ldbu 1 false ∧ LoadsLater .ldh 2 true ∧ LoadsLater .ldhu 2 false ∧
  LoadsLater .ldw 4 true ∧ LoadsLater .ldwu 4 false ∧ LoadsLater .ldd 8 false ∧
  (∀ r a sg z c (k : BitVec 3), LoadsLaterFrom (.lda r a sg z c k) r a sg (if z then 8 else 4) false true
    (fun x => x + BitVec.ofNat 64 (k.toNat * if z then 8 else 4))) ∧
  StoresLater .stb 1 ∧ StoresLater .sth 2 ∧ StoresLater .stw 4 ∧ StoresLater .std 8 ∧
  (∀ r a sg z c (k : BitVec 3), StoresLaterTo (.stl r a sg z c k) r a sg (if z then 8 else 4)
    (fun x => x + BitVec.ofNat 64 (k.toNat * if z then 8 else 4)) (some c)) ∧
  AtomicOneLater .aadd .add ∧ AtomicOneLater .aand .and ∧ AtomicOneLater .aor .or ∧ AtomicOneLater .axor .xor ∧
  AtomicOneLater .amin .min ∧ AtomicOneLater .amax .max ∧ AtomicOneLater .aminu .minu ∧ AtomicOneLater .amaxu .maxu ∧
  AtomicOneLater .aswp .swp ∧ AtomicLater .acas (fun d a => [.src a, .grp d 2]) .cas (fun s d => valueOf (self s) (d + 1)) ∧
  (∀ s c es, (∀ e ∈ es, e.near = none) → entriesOf (enterBuffer s c es) c = entriesOf s c ++ es ∧
    (enterBuffer s c es).mem = s.mem ∧ .storeDrain c ∈ (enterBuffer s c es).due) ∧
  (∀ s r, (send s r).mem = s.mem)

namespace Sys2Proof.Claims

/-- A queue load appends its value to `ld` (R83, R212). -/
def QueuesLoad (i : Reg → BitVec 3 → BitVec 9 → Instr) (n : Nat) (sgn : Bool) : Prop :=
  ∀ (a : Reg) sg o s t x s1, Issues s t → Checked [.src a] s → Reads a s x s1 → Passes s1 sg .load (scaled o n x) n →
    atIssue (kindAt s1 sg) = true → Touchable s1 (placeAt s1 sg (scaled o n x)) n → (self s1).outs = [] →
    (queuesOf (self s1) (self s1).level).ld.length < 16 → (∀ e ∈ (queuesOf (self s1) (self s1).level).ld, e.tx < s1.nextTx) →
    ∃ s' t' e, exec (i a sg o) s = .next s' ∧ s'.mem = s1.mem ∧ thr s' s.cur = some t' ∧ t'.pc = (self s1).pc + 4 ∧
      t'.regs = (self s1).regs ∧ e.val = some (loaded sgn n (readBytes s1.mem (placeAt s1 sg (scaled o n x)) n)) ∧
      (queuesOf t' t'.level).ld = (queuesOf (self s1) (self s1).level).ld ++ [e]

/-- A queue load from a buffered kind is sent, its place in `ld` kept for it (R83, R212). -/
def QueuesLoadLater (i : Reg → BitVec 3 → BitVec 9 → Instr) (n : Nat) (sgn : Bool) : Prop :=
  ∀ (a : Reg) sg o s t x s1, Issues s t → Checked [.src a] s → Reads a s x s1 → Passes s1 sg .load (scaled o n x) n →
    atIssue (kindAt s1 sg) = false → (self s1).outs = [] → (queuesOf (self s1) (self s1).level).ld.length < 16 →
    forward s1 s.cur (refAt (self s1) sg.toNat (scaled o n x) n) = .none →
    let acc := sentAccess s1 sg (scaled o n x) (.read n) .th
    let q := queuesOf (self s1) (self s1).level
    ∃ o', o'.dest = .ld (self s1).level n sgn ∧ (∃ p, o'.pieces = [p] ∧ p.acc = acc ∧ p.lanes = [] ∧ p.reply = none) ∧
      let s2 := send (tick (modSelf (tick s1) fun t =>
        setQueues { t with outs := [o'] } t.level { q with ld := q.ld ++ [{ tx := o'.tx, val := none }] })) acc
      exec (i a sg o) s = .next (finish (deliverAll s2 s2.cur) .seq)

/-- What the store of a value to a queued address does: it is performed at once, exactly its bytes changing and no thread, or
it enters the store buffer (R78, R84). -/
def StoredTo (s : State) (r : QAddr) (v : Word) (s' : State) : Prop :=
  let p := place (coreOf s.cur) r.kind r.tgt r.addr
  (atIssue r.kind = true → (∀ b, b < p ∨ p + r.size ≤ b → memByte s'.mem b = memByte s.mem b) ∧
    (∀ j < r.size, memByte s'.mem (p + j) = v.extractLsb' (8 * j) 8) ∧ s'.threads = s.threads) ∧
  (atIssue r.kind = false → s' = enterBuffer s (coreOf s.cur)
    [{ slot := s.cur, kind := r.kind, tgt := r.tgt, words := [(r.addr, r.size, v)], flush := false, tx := s.nextTx,
       swid := (self s).swid, m := (self s).level == .m }])

/-- When it may be: at once, if its bytes may be touched; else if the buffer has room. -/
def MayStore (s : State) (r : QAddr) : Prop :=
  (self s).outs = [] ∧ if atIssue r.kind = true then Touchable s (place (coreOf s.cur) r.kind r.tgt r.addr) r.size
  else holds (self s) = false ∧ (Machine.core s (coreOf s.cur)).sb.length < 32

/-- A queue store appends its address to those that wait for data (R84, R212); the oldest word of `sd` that waits for one is
stored to it. -/
def QueuesStore (i : Reg → BitVec 3 → BitVec 9 → Instr) (n : Nat) : Prop :=
  ∀ (a : Reg) sg o s t x s1, Issues s t → Checked [.src a] s → Reads a s x s1 → Passes s1 sg .store (scaled o n x) n →
    let q := queuesOf (self s1) (self s1).level
    let r : QAddr := { kind := kindAt s1 sg, tgt := (segOf (self s1) sg.toNat).tgt, addr := addrAt s1 sg (scaled o n x), size := n }
    (q.addrs.length < 16 → q.sd = [] →
      exec (i a sg o) s = .next (finish (modSelf s1 fun t => setQueues t t.level { q with addrs := q.addrs ++ [r] }) .seq)) ∧
    (∀ v vs, q.addrs = [] → q.sd = v :: vs →
      let s2 := modSelf s1 fun t => setQueues t t.level { q with addrs := [], sd := vs }
      MayStore s2 r → ∃ s3, exec (i a sg o) s = .next (finish s3 .seq) ∧ StoredTo s2 r v s3)

end Sys2Proof.Claims

/-- R83, R84, R85, R212: queue loads of every kind and queue stores, QUEUE-ORDER for the seventeenth of either, and the pairing
of addresses with data words, whichever comes first, in order. -/
def Obligations.QueueLoadsAndStores : Prop :=
  QueuesLoad .ldqw 4 true ∧ QueuesLoad .ldqd 8 false ∧ QueuesLoadLater .ldqw 4 true ∧ QueuesLoadLater .ldqd 8 false ∧
  QueuesStore .stqw 4 ∧ QueuesStore .stqd 8 ∧
  (∀ s t v r rs, thr s s.cur = some t → (queuesOf t t.level).addrs = r :: rs → (queuesOf t t.level).sd = [] →
    let s1 := setThr s s.cur (setQueues t t.level { queuesOf t t.level with addrs := rs })
    MayStore s1 r → ∃ s2, Writes 125 v s s2 ∧ StoredTo s1 r v s2) ∧
  (∀ (a : Reg) sg o s t, Issues s t → Plain t a → 16 ≤ (queuesOf t t.level).ld.length →
    (Passes s sg .load (scaled o 4 (valueOf t a)) 4 → exec (.ldqw a sg o) s = .next (enterTrap s s.cur 0x19 false 124 0 t.pc)) ∧
    (Passes s sg .load (scaled o 8 (valueOf t a)) 8 → exec (.ldqd a sg o) s = .next (enterTrap s s.cur 0x19 false 124 0 t.pc))) ∧
  (∀ (a : Reg) sg o s t, Issues s t → Plain t a → 16 ≤ (queuesOf t t.level).addrs.length →
    (Passes s sg .store (scaled o 4 (valueOf t a)) 4 → exec (.stqw a sg o) s = .next (enterTrap s s.cur 0x19 false 125 0 t.pc)) ∧
    (Passes s sg .store (scaled o 8 (valueOf t a)) 8 → exec (.stqd a sg o) s = .next (enterTrap s s.cur 0x19 false 125 0 t.pc)))

namespace Sys2Proof.Claims

/-- An atomic on a kind accessed at issue: the location takes the new value, x[d] the old one sign-extended, no other byte of
storage, no other register and no other thread changes (R106, R214). -/
def AtomicNow (i : Reg → Reg → Bool → Scope → AOrd → BitVec 2 → Instr) (us : Reg → Reg → List Use)
    (f : (n : Nat) → Word → Word → BitVec (8 * n) → BitVec (8 * n)) : Prop :=
  ∀ (d a : Reg) z c r (g : BitVec 2) s t eo s1, let n := if z then 8 else 4
    d.toNat < 112 ∨ d = 127 → Issues s t → Checked (us d a) s → Reads a s eo s1 → Passes s1 (g.setWidth 3) .atomic eo n →
    atIssue (kindAt s1 (g.setWidth 3)) = true → Touchable s1 (placeAt s1 (g.setWidth 3) eo) n →
    (self s1).outs.any (fun o => o.acq) = false → outCount (self s1) < 8 → (self s1).regs.length ≤ 112 →
    (r = .rel ∨ r = .ar → release c s1 = .ok ((), s1)) → NothingWaits s1 →
    let p := placeAt s1 (g.setWidth 3) eo
    let old : BitVec (8 * n) := BitVec.ofNat (8 * n) (leNat (readBytes s1.mem p n))
    let new := f n (valueOf (self s1) d) (valueOf (self s1) (d + 1)) old
    ∃ s', exec (i d a z c r g) s = .next s' ∧ (∀ b, b < p ∨ p + n ≤ b → memByte s'.mem b = memByte s1.mem b) ∧
      (∀ j < n, memByte s'.mem (p + j) = new.extractLsb' (8 * j) 8) ∧
      thr s' s.cur = some (goesOn (wrReg (self s1) d.toNat (old.signExtend 64)) ((self s1).pc + 4)) ∧
      ∀ k, k ≠ s.cur → thr s' k = thr s1 k

/-- An atomic of one operand register. -/
def AtomicOne (i : Reg → Reg → Bool → Scope → AOrd → BitVec 2 → Instr)
    (f : (n : Nat) → BitVec (8 * n) → BitVec (8 * n) → BitVec (8 * n)) : Prop :=
  AtomicNow i (fun d a => [.src a, .both d]) fun n p _ old => f n old (p.setWidth (8 * n))

end Sys2Proof.Claims

/-- R106, R214, R215: the ten atomics on CORE and CLUS. -/
def Obligations.AtomicsPerformedAtIssue : Prop :=
  AtomicOne .aadd (fun _ o p => o + p) ∧ AtomicOne .aand (fun _ o p => o &&& p) ∧ AtomicOne .aor (fun _ o p => o ||| p) ∧
  AtomicOne .axor (fun _ o p => o ^^^ p) ∧ AtomicOne .amin (fun _ o p => if p.toInt < o.toInt then p else o) ∧
  AtomicOne .amax (fun _ o p => if o.toInt < p.toInt then p else o) ∧
  AtomicOne .aminu (fun _ o p => if p.toNat < o.toNat then p else o) ∧
  AtomicOne .amaxu (fun _ o p => if o.toNat < p.toNat then p else o) ∧ AtomicOne .aswp (fun _ _ p => p) ∧
  AtomicNow .acas (fun d a => [.src a, .grp d 2])
    (fun n p q old => if old = p.setWidth (8 * n) then q.setWidth (8 * n) else old)

namespace Sys2Proof.Claims

/-- The thread has no access and no stream element under way (R92). -/
def ThreadQuiet (s : State) (t : Thread) : Prop :=
  t.outs = [] ∧ holds t = false ∧
  (∀ e ∈ (Machine.core s (coreOf s.cur)).sb, e.slot = s.cur → e.gone = false → e.kind ≠ .remc) ∧
  (∀ j ∈ (Machine.core s (coreOf s.cur)).journal, j.2.slot = s.cur → j.2.gone = false → unackedEntry j.2 = true → j.2.kind ≠ .remc)

/-- None of its stores is in the core's buffer either (R93). -/
def CoreQuiet (s : State) (t : Thread) : Prop :=
  ThreadQuiet s t ∧ ∀ e ∈ (Machine.core s (coreOf s.cur)).sb, e.slot = s.cur → e.gone = true

/-- No store of the core awaits an acknowledgement, and its basins have no dirty word and no write-back under way (R65, R102,
R104). -/
def WideQuiet (s : State) (t : Thread) : Prop :=
  CoreQuiet s t ∧ (∀ j ∈ (Machine.core s (coreOf s.cur)).journal, unackedEntry j.2 = false) ∧
  (Machine.core s (coreOf s.cur)).wbs = [] ∧ dirtyLines s (coreOf s.cur) (fun _ => true) = []

end Sys2Proof.Claims

/-- R65, R92, R93, R102, R113, R115: a fence of thread scope goes on, with nothing changed, once every load of the thread is
performed and every REMC store acknowledged; one of core scope once its share of the store buffer is empty too; a wider one
once the core's stores and write-backs are acknowledged, and one of system scope once no host-done is owed to the thread.
A fence that finds a load of the thread under way makes the thread wait, and its pc stays; so does a wider one that finds the
thread's own accesses performed and a basin of its core with a dirty word or a write-back under way: it waits for those. That the elements of a read stream
which are under way are among those loads is the model's choice (log entry 45). -/
def Obligations.FenceWaits : Prop :=
  (∀ s t, Issues s t → ThreadQuiet s t → exec (.fence .th) s = .next (finish s .seq)) ∧
  (∀ s t, Issues s t → CoreQuiet s t → exec (.fence .co) s = .next (finish s .seq)) ∧
  (∀ c s t, Issues s t → t.status = .ready → wideScope c = true → WideQuiet s t → (c = .sy → t.hostPending = []) →
    exec (.fence c) s = .next (finish s .seq)) ∧
  (∀ c s t, Issues s t → t.status = .ready → t.outs ≠ [] → (∀ o ∈ t.outs, o.acq = false) →
    ∃ s' t', exec (.fence c) s = .next s' ∧ s'.mem = s.mem ∧ thr s' s.cur = some t' ∧ t'.pc = t.pc ∧ t'.status = .wait .retry) ∧
  (∀ c s t, Issues s t → t.status = .ready → wideScope c = true → CoreQuiet s t →
    (∀ j ∈ (Machine.core s (coreOf s.cur)).journal, j.2.slot = s.cur → j.2.gone = false → unackedEntry j.2 = false) →
    (Machine.core s (coreOf s.cur)).wbs ≠ [] ∨ dirtyLines s (coreOf s.cur) (fun _ => true) ≠ [] →
    ∃ s' t', exec (.fence c) s = .next s' ∧ s'.mem = s.mem ∧ thr s' s.cur = some t' ∧ t'.pc = t.pc ∧
      t'.status = .wait (.release (Machine.core s (coreOf s.cur)).seq s.nextTx))

/-! ### Vector instructions (spec/15_isa_vector.md) -/

namespace Sys2Proof.Claims

/-- Lane l of a vector register, in its lane slice (R179). -/
def laneAt (s : State) (c : Nat) (t : Thread) (v : Reg) (l : Nat) : Lane :=
  BitVec.ofNat 32 (leNat (readBytes s.mem (vPlace c t v.toNat l) 4))

/-- A lane is active: the instruction is unpredicated, or the lane's predicate bit is 1 (R237). -/
def Active (t : Thread) (p : Bool) (l : Nat) : Prop := p = false ∨ t.vp.getLsbD l = true

/-- What an instruction leaves that writes lanes of register d at once, from a state: the lanes, every other byte of storage
as it was, the thread at its next instruction, no other thread changed. -/
def LanesNow (i : Instr) (s s1 : State) (d : Reg) (g : Nat → Lane) : Prop :=
  let t := self s1
  let c := coreOf s1.cur
  NothingWaits s1 → ∃ s', exec i s = .next s' ∧ (∀ l < 16, laneAt s' c t d l = g l) ∧
    (∀ x, (∀ l < 16, x < vPlace c t d.toNat l ∨ vPlace c t d.toNat l + 4 ≤ x) → memByte s'.mem x = memByte s1.mem x) ∧
    thr s' s1.cur = some (goesOn t (t.pc + 4)) ∧ ∀ k, k ≠ s1.cur → thr s' k = thr s1 k

/-- What an instruction leaves whose result comes 8 cycles later (R182, R237): a window register's value or a vector
register's active lanes on their way. -/
def resultLater (s : State) (reg : Option (Nat × Word)) (vec : Option (Nat × List (Nat × Lane))) : State :=
  post (tick (modSelf s fun t => { t with results := t.results ++ [{ tx := s.nextTx, reg := reg, vec := vec }] }))
    (.operationResult s.cur s.nextTx)

open Classical in
/-- A lane-by-lane instruction on two registers and the destination's old lane, at once. -/
def VecNow (i : Reg → Reg → Reg → Bool → Instr) (f : Lane → Lane → Lane → Lane) : Prop :=
  ∀ d a b p s t, Issues s t → Checked [.vec a, .vec b, .vec d] s →
    LanesNow (i d a b p) s s d fun l =>
      let z := laneAt s (coreOf s.cur) t d l
      if Active t p l then f (laneAt s (coreOf s.cur) t a l) (laneAt s (coreOf s.cur) t b l) z else z

/-- The active lanes in order. -/
def activeLanes (t : Thread) (p : Bool) : List Nat := (List.range 16).filter fun l => p == false || t.vp.getLsbD l

/-- A lane-by-lane instruction of two sources whose result comes later; f has the rounding mode of TS.VRM. -/
def VecLater (i : Reg → Reg → Reg → Bool → Instr) (f : Rm → Lane → Lane → Lane → Lane) : Prop :=
  ∀ d a b p s t, Issues s t → Checked [.vec a, .vec b, .vec d] s →
    let at_ := fun v l => laneAt s (coreOf s.cur) t v l
    exec (i d a b p) s = .next (finish (resultLater s none (some (d.toNat, (activeLanes t p).map fun l =>
      (l, f (rmOf t.vrm.toNat) (at_ a l) (at_ b l) (at_ d l))))) .seq)

/-- The same of one source and the destination's old lane. -/
def VecLaterOne (i : Reg → Reg → Bool → Instr) (f : Lane → Lane → Lane) : Prop :=
  ∀ d a p s t, Issues s t → Checked [.vec a, .vec d] s →
    let at_ := fun v l => laneAt s (coreOf s.cur) t v l
    exec (i d a p) s = .next (finish (resultLater s none (some (d.toNat, (activeLanes t p).map fun l =>
      (l, f (at_ a l) (at_ d l))))) .seq)

/-- A function of bytes applied to the four bytes of two lanes. -/
def bytewise (f : Byte → Byte → Byte) (x y : Lane) : Lane :=
  let g := fun k => f (x.extractLsb' (8 * k) 8) (y.extractLsb' (8 * k) 8)
  g 3 ++ g 2 ++ g 1 ++ g 0

/-- A signed integer clamped to w bits (R238). -/
def clamped (w : Nat) (i : Int) : BitVec w := BitVec.ofInt w (max (-2 ^ (w - 1)) (min (2 ^ (w - 1) - 1) i))

/-- The sum of the products of four signed bytes and four bytes read by g (R238). -/
def dots (g : Byte → Int) (x y : Lane) : Int :=
  (x.extractLsb' 0 8).toInt * g (y.extractLsb' 0 8) + (x.extractLsb' 8 8).toInt * g (y.extractLsb' 8 8) +
    (x.extractLsb' 16 8).toInt * g (y.extractLsb' 16 8) + (x.extractLsb' 24 8).toInt * g (y.extractLsb' 24 8)

end Sys2Proof.Claims

/-- R237, R238: the integer operations on lanes and on bytes of lanes, predicated or not: active lanes take the result,
inactive lanes and all other storage keep their values. -/
def Obligations.VectorIntegerResults : Prop :=
  VecNow .vaddI32 (fun a b _ => a + b) ∧ VecNow .vsubI32 (fun a b _ => a - b) ∧ VecNow .vmulI32 (fun a b _ => a * b) ∧
  VecNow .vmulhI32 (fun a b _ => BitVec.ofInt 32 (a.toInt * b.toInt / 2 ^ 32)) ∧
  VecNow .vminI32 (fun a b _ => if b.toInt < a.toInt then b else a) ∧
  VecNow .vmaxI32 (fun a b _ => if a.toInt < b.toInt then b else a) ∧
  VecNow .vminuI32 (fun a b _ => if b.toNat < a.toNat then b else a) ∧
  VecNow .vmaxuI32 (fun a b _ => if a.toNat < b.toNat then b else a) ∧
  VecNow .vandI32 (fun a b _ => a &&& b) ∧ VecNow .vorI32 (fun a b _ => a ||| b) ∧ VecNow .vxorI32 (fun a b _ => a ^^^ b) ∧
  VecNow .vshlI32 (fun a b _ => a <<< (b &&& 31)) ∧ VecNow .vshrI32 (fun a b _ => a >>> (b &&& 31)) ∧
  VecNow .vsraI32 (fun a b _ => a.sshiftRight (b &&& 31).toNat) ∧
  VecNow .vaddsI32 (fun a b _ => clamped 32 (a.toInt + b.toInt)) ∧ VecNow .vsubsI32 (fun a b _ => clamped 32 (a.toInt - b.toInt)) ∧
  VecNow .vaddI8x4 (fun a b _ => bytewise (· + ·) a b) ∧ VecNow .vsubI8x4 (fun a b _ => bytewise (· - ·) a b) ∧
  VecNow .vaddsI8x4 (fun a b _ => bytewise (fun x y => clamped 8 (x.toInt + y.toInt)) a b) ∧
  VecNow .vsubsI8x4 (fun a b _ => bytewise (fun x y => clamped 8 (x.toInt - y.toInt)) a b) ∧
  VecNow .vminI8x4 (fun a b _ => bytewise (fun x y => if y.toInt < x.toInt then y else x) a b) ∧
  VecNow .vmaxI8x4 (fun a b _ => bytewise (fun x y => if x.toInt < y.toInt then y else x) a b) ∧
  VecNow .vminuI8x4 (fun a b _ => bytewise (fun x y => if y.toNat < x.toNat then y else x) a b) ∧
  VecNow .vmaxuI8x4 (fun a b _ => bytewise (fun x y => if x.toNat < y.toNat then y else x) a b) ∧
  VecNow .vdot4 (fun a b d => d + BitVec.ofInt 32 (dots (fun y => y.toInt) a b)) ∧
  VecNow .vdot4su (fun a b d => d + BitVec.ofInt 32 (dots (fun y => (y.toNat : Int)) a b)) ∧
  VecNow .vabsdI8x4 (fun a b _ => bytewise (fun x y => BitVec.ofNat 8 (x.toInt - y.toInt).natAbs) a b) ∧
  VecNow .vavgI8x4 (fun a b _ => bytewise (fun x y => BitVec.ofInt 8 ((x.toInt + y.toInt + 1) / 2)) a b)

namespace Sys2Proof.Claims

/-- An FP32 operation on the encodings of lanes. -/
def single (f : Rm → Nat → Nat → Nat → Nat) : Rm → Lane → Lane → Lane → Lane :=
  fun r x y z => BitVec.ofNat 32 (f r x.toNat y.toNat z.toNat)

/-- A BF16 operation on the two halves of lanes. -/
def halves (f : Rm → Nat → Nat → Nat → Nat) : Rm → Lane → Lane → Lane → Lane :=
  fun r x y z =>
    let g := fun k => BitVec.ofNat 16 (f r (x.extractLsb' k 16).toNat (y.extractLsb' k 16).toNat (z.extractLsb' k 16).toNat)
    g 16 ++ g 0

end Sys2Proof.Claims

/-- R239 to R241: the floating-point operations of lanes and of halves, each rounded once in the mode of TS.VRM, on their way
to the active lanes. -/
def Obligations.VectorFloatResults : Prop :=
  VecLater .vaddBf16x2 (halves fun r x y _ => Flt.bf16.round r ((Flt.bf16.read x).add r (Flt.bf16.read y))) ∧
  VecLater .vsubBf16x2 (halves fun r x y _ => Flt.bf16.diff r x y) ∧
  VecLater .vmulBf16x2 (halves fun r x y _ => Flt.bf16.round r ((Flt.bf16.read x).mul (Flt.bf16.read y))) ∧
  VecLater .vfmaBf16x2 (halves fun r x y z => Flt.bf16.fma r x y z) ∧
  VecLater .vminBf16x2 (halves fun _ x y _ => Flt.bf16.least x y) ∧ VecLater .vmaxBf16x2 (halves fun _ x y _ => Flt.bf16.most x y) ∧
  VecLater .vaddF32 (single fun r x y _ => Flt.f32.round r ((Flt.f32.read x).add r (Flt.f32.read y))) ∧
  VecLater .vsubF32 (single fun r x y _ => Flt.f32.diff r x y) ∧
  VecLater .vmulF32 (single fun r x y _ => Flt.f32.round r ((Flt.f32.read x).mul (Flt.f32.read y))) ∧
  VecLater .vfmaF32 (single fun r x y z => Flt.f32.fma r x y z) ∧ VecLater .vfmsF32 (single fun r x y z => Flt.f32.fms r x y z) ∧
  VecLater .vminF32 (single fun _ x y _ => Flt.f32.least x y) ∧ VecLater .vmaxF32 (single fun _ x y _ => Flt.f32.most x y) ∧
  VecLater .vdot2 (fun r x y z => BitVec.ofNat 32 (dot2 r x.toNat y.toNat z.toNat)) ∧
  VecLaterOne .vabsF32 (fun x _ => if (Flt.f32.read x.toNat).isNan then BitVec.ofNat 32 Flt.f32.nan else x &&& 0x7FFFFFFF) ∧
  VecLaterOne .vnegF32 (fun x _ => if (Flt.f32.read x.toNat).isNan then BitVec.ofNat 32 Flt.f32.nan else x ^^^ 0x80000000) ∧
  VecLaterOne .frcpa (fun x _ => BitVec.ofNat 32 (recip x.toNat)) ∧ VecLaterOne .frsqa (fun x _ => BitVec.ofNat 32 (recipSqrt x.toNat)) ∧
  VecLaterOne .fexp2a (fun x _ => BitVec.ofNat 32 (exp2 x.toNat))

namespace Sys2Proof.Claims

/-- A lane with n bits from bit k up replaced by those of v. -/
def Patched (z v r : Lane) (k n : Nat) : Prop :=
  ∀ j < 32, r.getLsbD j = if k ≤ j ∧ j < k + n then v.getLsbD (j - k) else z.getLsbD j

/-- A narrowing conversion replaces one field of each active lane and keeps the others. -/
def Narrows (i : Reg → Reg → Bool → Instr) (k n : Nat) (f : Lane → Lane) : Prop :=
  ∃ g, VecLaterOne i g ∧ ∀ x z, Patched z (f x) (g x z) k n

end Sys2Proof.Claims

/-- R230, R243: the conversions; a narrowing form replaces the selected half or byte of each active lane. -/
def Obligations.VectorConversions : Prop :=
  (∀ r, VecLaterOne (.vcvtF32I32 · · r ·) (fun x _ => BitVec.ofNat 32 (Flt.f32.round r (Machine.Num.ofInt x.toInt)))) ∧
  (∀ r, VecLaterOne (.vcvtI32F32 · · r ·) (fun x _ => BitVec.ofInt 32 ((Flt.f32.read x.toNat).toInt r 32))) ∧
  (∀ h, VecLaterOne (.vcvtF32Bf16 · · h ·) (fun x _ =>
    BitVec.ofNat 32 (Flt.convert .bf16 .f32 .rne (x.extractLsb' (16 * h.toNat) 16).toNat))) ∧
  (∀ k, VecLaterOne (.vcvtF32E4m3 · · k ·) (fun x _ => BitVec.ofNat 32 (Flt.convert .e4m3 .f32 .rne (x.extractLsb' (8 * k.toNat) 8).toNat))) ∧
  (∀ k, VecLaterOne (.vcvtF32E5m2 · · k ·) (fun x _ => BitVec.ofNat 32 (Flt.convert .e5m2 .f32 .rne (x.extractLsb' (8 * k.toNat) 8).toNat))) ∧
  (∀ k, VecLaterOne (.vcvtF32I8 · · k ·) (fun x _ => BitVec.ofNat 32 (Flt.f32.round .rne (Machine.Num.ofInt (x.extractLsb' (8 * k.toNat) 8).toInt)))) ∧
  (∀ h r, Narrows (.vcvtBf16F32 · · h r ·) (16 * h.toNat) 16 (fun x => BitVec.ofNat 32 (Flt.convert .f32 .bf16 r x.toNat))) ∧
  (∀ k r, Narrows (.vcvtE4m3F32 · · k r ·) (8 * k.toNat) 8 (fun x => BitVec.ofNat 32 (Flt.convert .f32 .e4m3 r x.toNat))) ∧
  (∀ k r, Narrows (.vcvtE5m2F32 · · k r ·) (8 * k.toNat) 8 (fun x => BitVec.ofNat 32 (Flt.convert .f32 .e5m2 r x.toNat))) ∧
  (∀ k r, Narrows (.vcvtI8F32 · · k r ·) (8 * k.toNat) 8 (fun x => BitVec.ofInt 32 ((Flt.f32.read x.toNat).toInt r 8)))

open Classical in
/-- R247, R250: broadcasts, extracts, inserts, permutations, rotations, selects and predicate moves. -/
def Obligations.VectorMoves : Prop :=
  (∀ d a p s t x s1, Issues s t → Checked [.src a, .vec d] s → Reads a s x s1 →
    LanesNow (.vbcast d a p) s s1 d fun l =>
      if Active (self s1) p l then x.setWidth 32 else laneAt s1 (coreOf s1.cur) (self s1) d l) ∧
  (∀ d a l s t s1, Issues s t → Checked [.vec a, .dst d] s →
    Writes d ((laneAt s (coreOf s.cur) t a l.toNat).signExtend 64) s s1 → exec (.vextr d a l) s = .next (finish s1 .seq)) ∧
  (∀ d a k p s t x s1, Issues s t → Checked [.src a, .vec d] s → Reads a s x s1 →
    LanesNow (.vins d a k p) s s1 d fun l =>
      if l = k.toNat ∧ Active (self s1) p l then x.setWidth 32 else laneAt s1 (coreOf s1.cur) (self s1) d l) ∧
  (∀ d a b p s t, Issues s t → Checked [.vec a, .vec b, .vec d] s →
    LanesNow (.vperm d a b p) s s d fun l =>
      if Active t p l then laneAt s (coreOf s.cur) t a ((laneAt s (coreOf s.cur) t b l).toNat % 16)
      else laneAt s (coreOf s.cur) t d l) ∧
  (∀ d a k p s t, Issues s t → Checked [.vec a, .vec d] s →
    LanesNow (.vrot d a k p) s s d fun l =>
      if Active t p l then laneAt s (coreOf s.cur) t a ((l + k.toNat) % 16) else laneAt s (coreOf s.cur) t d l) ∧
  (∀ d a b s t, Issues s t → Checked [.vec a, .vec b, .vec d] s →
    LanesNow (.vsel d a b) s s d fun l => laneAt s (coreOf s.cur) t (if t.vp.getLsbD l then a else b) l) ∧
  (∀ d s t s1, Issues s t → Checked [.dst d] s → Writes d (t.vp.setWidth 64) s s1 →
    exec (.vpmovToX d) s = .next (finish s1 .seq)) ∧
  (∀ a s t x s1, Issues s t → Checked [.src a] s → Reads a s x s1 →
    exec (.vpmovToVp a) s = .next (finish (modSelf s1 fun t => { t with vp := x.setWidth 16 }) .seq))

namespace Sys2Proof.Claims

/-- R249: a compare writes the predicate, of the active lanes if predicated, and nothing else. -/
def Compares (i : Reg → Reg → Bool → Instr) (f : Lane → Lane → Prop) : Prop :=
  ∀ a b p s t, Issues s t → Checked [.vec a, .vec b] s →
    ∃ vp : BitVec 16, exec (i a b p) s = .next (finish (modSelf s fun t => { t with vp := vp }) .seq) ∧
      ∀ l < 16, (vp.getLsbD l = true ↔
        f (laneAt s (coreOf s.cur) t a l) (laneAt s (coreOf s.cur) t b l) ∧ (p = true → t.vp.getLsbD l = true))

/-- Two lanes read as FP32. -/
def nums (f : Machine.Num → Machine.Num → Bool) (x y : Lane) : Prop := f (Flt.f32.read x.toNat) (Flt.f32.read y.toNat) = true

/-- R248: two nodes of the tree combined, an empty one leaving the other. -/
def joined (f : Lane → Lane → Lane) : Option Lane → Option Lane → Option Lane
  | some x, some y => some (f x y)
  | some x, none => some x
  | none, y => y

/-- R248: the root of the tree of four levels over 16 leaves. -/
def treeRoot (f : Lane → Lane → Lane) (n0 : Nat → Option Lane) : Option Lane :=
  let up := fun (n : Nat → Option Lane) (k : Nat) => joined f (n (2 * k)) (n (2 * k + 1))
  up (up (up (up n0))) 0

/-- R248: a reduction of the active lanes on its way to d. -/
def Reduces (i : Reg → Reg → Bool → Instr) (f : Rm → Lane → Lane → Lane) (unit : Lane) (ext : Lane → Word) : Prop :=
  ∀ d a p s t, Issues s t → Checked [.vec a, .dst d] s →
    let n0 := fun l => if (activeLanes t p).contains l then some (laneAt s (coreOf s.cur) t a l) else none
    let v := (treeRoot (f (rmOf t.vrm.toNat)) n0).getD unit
    (d.toNat < 112 → exec (i d a p) s = .next (finish (resultLater s (some (d.toNat, ext v)) none) .seq)) ∧
    (d = 127 → exec (i d a p) s = .next (finish s .seq))

/-- R248: an inclusive prefix over the active lanes on its way to d: lane l takes the fold of the active lanes up to l. -/
def Scans (i : Reg → Reg → Bool → Instr) (f : Rm → Lane → Lane → Lane) : Prop :=
  ∀ d a p s t, Issues s t → Checked [.vec a, .vec d] s →
    let upTo := fun l => ((activeLanes t p).filter (· ≤ l)).map fun k => laneAt s (coreOf s.cur) t a k
    exec (i d a p) s = .next (finish (resultLater s none (some (d.toNat, (activeLanes t p).map fun l =>
      (l, (upTo l).tail.foldl (f (rmOf t.vrm.toNat)) ((upTo l).headD 0))))) .seq)

end Sys2Proof.Claims

/-- R237, R249: the compares write the predicate. -/
def Obligations.VectorCompares : Prop :=
  Compares .vcmpeqI32 (fun x y => x = y) ∧ Compares .vcmpltI32 (fun x y => x.toInt < y.toInt) ∧
  Compares .vcmpltuI32 (fun x y => x.toNat < y.toNat) ∧ Compares .vcmpleI32 (fun x y => x.toInt ≤ y.toInt) ∧
  Compares .vcmpeqF32 (nums Machine.Num.eq) ∧ Compares .vcmpltF32 (nums Machine.Num.lt) ∧
  Compares .vcmpleF32 (nums fun u v => u.lt v || u.eq v) ∧ Compares .vcmpunF32 (nums fun u v => u.isNan || v.isNan)

/-- R182, R248: reductions in the fixed tree and prefixes in lane order. -/
def Obligations.VectorReductionsAndScans : Prop :=
  Reduces .vredaddI32 (fun _ x y => x + y) 0 (fun v => v.signExtend 64) ∧
  Reduces .vredaddF32 (fun r x y => BitVec.ofNat 32 (Flt.f32.sum r x.toNat y.toNat)) 0 (fun v => v.setWidth 64) ∧
  Reduces .vredmaxI32 (fun _ x y => if x.toInt < y.toInt then y else x) 0x80000000 (fun v => v.signExtend 64) ∧
  Reduces .vredmaxF32 (fun _ x y => BitVec.ofNat 32 (Flt.f32.most x.toNat y.toNat)) 0xFF800000 (fun v => v.setWidth 64) ∧
  Scans .vscanI32 (fun _ x y => x + y) ∧ Scans .vscanF32 (fun r x y => BitVec.ofNat 32 (Flt.f32.sum r x.toNat y.toNat))

namespace Sys2Proof.Claims

/-- R20, R244: every active lane's access of 4 bytes passes its checks, and may be touched at once. -/
def LanesPass (s : State) (sg : BitVec 3) (c : Cls) (eo : Nat → Word) (p : Bool) : Prop :=
  (∃ l < 16, Active (self s) p l) ∧ atIssue (kindAt s sg) = true ∧
    ∀ l < 16, Active (self s) p l → Passes s sg c (eo l) 4 ∧ Touchable s (placeAt s sg (eo l)) 4

open Classical in
/-- A vector load from a kind accessed at issue: each active lane takes its word. -/
def VecLoads (i : Instr) (s s1 : State) (d : Reg) (sg : BitVec 3) (p : Bool) (eo : Nat → Word) : Prop :=
  LanesPass s1 sg .vload eo p → (self s1).outs = [] →
    LanesNow i s s1 d fun l =>
      if Active (self s1) p l then BitVec.ofNat 32 (leNat (readBytes s1.mem (placeAt s1 sg (eo l)) 4))
      else laneAt s1 (coreOf s1.cur) (self s1) d l

/-- A vector store to a kind accessed at issue: the word at each active lane's address is that of the highest active lane
with the address; every other byte, and the thread but for its pc, is as it was. -/
def VecStores (i : Instr) (s s1 : State) (d : Reg) (sg : BitVec 3) (p : Bool) (eo : Nat → Word) : Prop :=
  LanesPass s1 sg .vstore eo p → (self s1).outs.any (fun o => o.acq) = false → NothingWaits s1 →
    let at_ := fun l => placeAt s1 sg (eo l)
    ∃ s', exec i s = .next s' ∧
      (∀ x, (∀ l < 16, Active (self s1) p l → x < at_ l ∨ at_ l + 4 ≤ x) → memByte s'.mem x = memByte s1.mem x) ∧
      (∀ l < 16, Active (self s1) p l → (∀ m < 16, l < m → Active (self s1) p m → at_ m ≠ at_ l) →
        BitVec.ofNat 32 (leNat (readBytes s'.mem (at_ l) 4)) = laneAt s1 (coreOf s1.cur) (self s1) d l) ∧
      thr s' s1.cur = some (goesOn (self s1) ((self s1).pc + 4)) ∧ ∀ k, k ≠ s1.cur → thr s' k = thr s1 k

end Sys2Proof.Claims

/-- R244 to R246: the vector loads and stores on LANE, CORE and CLUS: consecutive words, a stride, or one index a lane. -/
def Obligations.VectorMemoryAtIssue : Prop :=
  (∀ d a sg p s t x s1, Issues s t → Checked [.src a, .vec d] s → Reads a s x s1 →
    VecLoads (.vld d a sg p) s s1 d sg p (fun l => x + BitVec.ofNat 64 (4 * l)) ∧
    VecStores (.vst d a sg p) s s1 d sg p (fun l => x + BitVec.ofNat 64 (4 * l))) ∧
  (∀ d a sg (k : BitVec 4) p s t x y s1 s2, Issues s t → Checked [.src a, .src (k.setWidth 7), .vec d] s → Reads a s x s1 →
    Reads (k.setWidth 7) s1 y s2 →
    VecLoads (.vlds d a sg k p) s s2 d sg p (fun l => x + BitVec.ofNat 64 l * y)) ∧
  (∀ d a sg (i : BitVec 4) p s t x s1, Issues s t → Checked [.src a, .vec (i.setWidth 7), .vec d] s → Reads a s x s1 →
    let eo := fun l => x + (laneAt s1 (coreOf s1.cur) (self s1) (i.setWidth 7) l).signExtend 64
    VecLoads (.vgath d a sg i p) s s1 d sg p eo ∧ VecStores (.vscat d a sg i p) s s1 d sg p eo)

namespace Sys2Proof.Claims

/-- A vector store to CHIP or GLOB: one entry of the buffer for each line that it touches, by rising address, in which each
word is that of the highest active lane with its address. -/
def VecStoresLater (i : Instr) (s s1 : State) (d : Reg) (sg : BitVec 3) (p : Bool) (eo : Nat → Word) : Prop :=
  let at_ := fun l => addrAt s1 sg (eo l)
  let lines := ((activeLanes (self s1) p).map fun l => at_ l / 128).eraseDups
  kindAt s1 sg = .glob ∨ kindAt s1 sg = .chip → activeLanes (self s1) p ≠ [] →
    (∀ l ∈ activeLanes (self s1) p, Passes s1 sg .vstore (eo l) 4) → (self s1).outs = [] → holds (self s1) = false →
    (Machine.core s1 (coreOf s1.cur)).sb.length + lines.length ≤ 32 →
    ∃ es, exec i s = .next (finish (enterBuffer s1 (coreOf s1.cur) es) .seq) ∧ es.length = lines.length ∧
      (∀ e ∈ es, e.words ≠ [] ∧ e =
        { slot := s1.cur, kind := kindAt s1 sg, tgt := 0, words := e.words, flush := false, tx := s1.nextTx,
          swid := (self s1).swid, m := (self s1).level == .m }) ∧
      (∀ e ∈ es, ∀ v ∈ e.words, ∀ w ∈ e.words, v.1 / 128 = w.1 / 128) ∧
      es.Pairwise (fun e f => ∀ v ∈ e.words, ∀ w ∈ f.words, v.1 / 128 < w.1 / 128) ∧
      ∀ w, (∃ e ∈ es, w ∈ e.words) ↔ ∃ l ∈ activeLanes (self s1) p,
        (∀ m ∈ activeLanes (self s1) p, l < m → at_ m ≠ at_ l) ∧
        w = (at_ l, 4, (laneAt s1 (coreOf s1.cur) (self s1) d l).setWidth 64)

/-- A vector load from CHIP or GLOB, none of whose words waits in the thread's own buffer, is sent: one more outstanding load,
whose accesses serve every active lane once with its own word, those of one line of GLOB together; nothing is written yet. -/
def VecLoadsLater (i : Instr) (s s1 : State) (d : Reg) (sg : BitVec 3) (p : Bool) (eo : Nat → Word) : Prop :=
  kindAt s1 sg = .glob ∨ kindAt s1 sg = .chip → activeLanes (self s1) p ≠ [] →
    (∀ l ∈ activeLanes (self s1) p, Passes s1 sg .vload (eo l) 4) → (self s1).outs = [] →
    (∀ l ∈ activeLanes (self s1) p,
      forward s1 s1.cur { refAt (self s1) sg.toNat (eo l) 4 with lanes := [(l, 0, eo l)] } = .none) →
    ∃ o, o.dest = .v d.toNat ∧ o.atom = false ∧ o.acq = false ∧
      (∀ q ∈ o.pieces, q.reply = none ∧ ∃ tx tgt a n,
        q.acc = { sentAccess s1 sg 0 (.read n) .th with tx := tx, tgt := tgt, addr := a } ∧
        ∀ m ∈ q.lanes, m.2.2 = eo m.1 ∧ a + m.2.1 = addrAt s1 sg (eo m.1) ∧ m.2.1 + 4 ≤ n ∧
          (kindAt s1 sg = .glob → addrAt s1 sg (eo m.1) / 128 = a / 128)) ∧
      ((o.pieces.flatMap fun q => q.lanes.map Prod.fst).Perm (activeLanes (self s1) p)) ∧
      (kindAt s1 sg = .glob → o.pieces.Pairwise fun q r => q.acc.addr / 128 ≠ r.acc.addr / 128) ∧
      let s2 := tick (modSelf { s1 with nextTx := s1.nextTx + o.pieces.length } fun t => { t with outs := [o] })
      let s3 := o.pieces.foldl (fun s q => send s q.acc) s2
      exec i s = .next (finish (deliverAll s3 s3.cur) .seq)

end Sys2Proof.Claims

/-- R244, R245: the vector stores to CHIP and GLOB enter the store buffer line by line, by rising address, each word that of
the highest active lane with its address; the vector loads there are sent, every active lane served. -/
def Obligations.VectorMemoryBuffered : Prop :=
  (∀ d a sg p s t x s1, Issues s t → Checked [.src a, .vec d] s → Reads a s x s1 →
    VecLoadsLater (.vld d a sg p) s s1 d sg p (fun l => x + BitVec.ofNat 64 (4 * l)) ∧
    VecStoresLater (.vst d a sg p) s s1 d sg p (fun l => x + BitVec.ofNat 64 (4 * l))) ∧
  (∀ d a sg (k : BitVec 4) p s t x y s1 s2, Issues s t → Checked [.src a, .src (k.setWidth 7), .vec d] s → Reads a s x s1 →
    Reads (k.setWidth 7) s1 y s2 → VecLoadsLater (.vlds d a sg k p) s s2 d sg p (fun l => x + BitVec.ofNat 64 l * y)) ∧
  (∀ d a sg (i : BitVec 4) p s t x s1, Issues s t → Checked [.src a, .vec (i.setWidth 7), .vec d] s → Reads a s x s1 →
    let eo := fun l => x + (laneAt s1 (coreOf s1.cur) (self s1) (i.setWidth 7) l).signExtend 64
    VecLoadsLater (.vgath d a sg i p) s s1 d sg p eo ∧ VecStoresLater (.vscat d a sg i p) s s1 d sg p eo)

namespace Sys2Proof.Claims

/-- R22: the kinds that a scalar load or store, an atomic, or vector memory may use. -/
def mayUse : Cls → Kind → Prop
  | .atomic, k => k ≠ .null ∧ k ≠ .lane
  | .vload, k => k = .lane ∨ k = .core ∨ k = .clus ∨ k = .chip ∨ k = .glob
  | .vstore, k => k = .lane ∨ k = .core ∨ k = .clus ∨ k = .chip ∨ k = .glob
  | _, k => k ≠ .null

/-- R17, R22: the bit of a segment's first word that such an access needs: RD, WR or AT. -/
def rightBit : Cls → Nat
  | .store => 56
  | .vstore => 56
  | .atomic => 58
  | _ => 55

/-- R20, R21: the first of steps 1 to 3 that fails for an effective offset, with its code and value. -/
def SegmentFails (s : State) (sg : BitVec 3) (c : Cls) (eo : Word) (code : Nat) (v : Word) : Prop :=
  let k := kindAt s sg
  (k = .null ∧ code = 0x10 ∧ v = sg.setWidth 64) ∨
  (k ≠ .null ∧ ¬ mayUse c k ∧ code = 0x11 ∧ v = sg.setWidth 64) ∨
  (mayUse c k ∧ (segOf (self s) sg.toNat).s0.getLsbD (rightBit c) = false ∧ code = 0x12 ∧ v = eo)

/-- R20, R21: the first of steps 1 to 6 that fails for an access of n bytes, with its code and value. -/
def AccessFails (s : State) (sg : BitVec 3) (c : Cls) (eo : Word) (n code : Nat) (v : Word) : Prop :=
  let g := segOf (self s) sg.toNat
  SegmentFails s sg c eo code v ∨
  (mayUse c (kindAt s sg) ∧ g.s0.getLsbD (rightBit c) = true ∧
    ((eo.toNat % n ≠ 0 ∧ code = 0x13 ∧ v = eo) ∨
     (eo.toNat % n = 0 ∧ g.limit < eo.toNat + n ∧ code = 0x14 ∧ v = eo) ∨
     (eo.toNat % n = 0 ∧ eo.toNat + n ≤ g.limit ∧ kindAt s sg = .remc ∧
       (cluster s (clusterOf (coreOf s.cur))).acc.getLsbD g.tgt = false ∧ code = 0x15 ∧ v = BitVec.ofNat 64 g.tgt)))

/-- A form that reads its base alone before its access of n bytes is checked. -/
def CheckedAccess (i : Instr) (us : List Use) (a : Reg) (sg : BitVec 3) (c : Cls) (n : Nat) (eo : Word → Word) : Prop :=
  ∀ s t x s1 code v, Issues s t → Checked us s → Reads a s x s1 → AccessFails s1 sg c (eo x) n code v → Traps i s t code v

/-- A store, which reads its data too. -/
def CheckedStore (i : Instr) (r a : Reg) (sg : BitVec 3) (n : Nat) (eo : Word → Word) : Prop :=
  ∀ s t x w s1 s2 code v, Issues s t → Checked [.src a, .src r] s → Reads a s x s1 → Reads r s1 w s2 →
    AccessFails s2 sg .store (eo x) n code v → Traps i s t code v

/-- R244: a vector access fails: that of the lowest active lane whose access fails, or steps 1 to 3 for x[a] where no lane is
active. -/
def LanesFail (s : State) (sg : BitVec 3) (c : Cls) (x : Word) (eo : Nat → Word) (p : Bool) (code : Nat) (v : Word) : Prop :=
  (∃ l ∈ activeLanes (self s) p, AccessFails s sg c (eo l) 4 code v ∧
    ∀ m ∈ activeLanes (self s) p, m < l → Passes s sg c (eo m) 4) ∨
  (activeLanes (self s) p = [] ∧ SegmentFails s sg c x code v)

/-- The offset of LDA and STL (R213). -/
def ordered (k : BitVec 3) (n : Nat) (x : Word) : Word := x + BitVec.ofNat 64 (k.toNat * n)

end Sys2Proof.Claims

/-- R20 to R22, R244: every load, store, queue form, load-acquire, store-release, atomic, flush, invalidation and vector access
whose checks fail traps exactly, with the code and the value of the first check that fails. -/
def Obligations.AddressChecksTrap : Prop :=
  (∀ p ∈ ([(.ldb, 1), (.ldbu, 1), (.ldh, 2), (.ldhu, 2), (.ldw, 4), (.ldwu, 4), (.ldd, 8)] :
      List ((Reg → Reg → BitVec 3 → BitVec 9 → Instr) × Nat)), ∀ (r a : Reg) sg o,
    CheckedAccess (p.1 r a sg o) [.src a, .dst r] a sg .load p.2 (scaled o p.2)) ∧
  (∀ p ∈ ([(.stb, 1), (.sth, 2), (.stw, 4), (.std, 8)] : List ((Reg → Reg → BitVec 3 → BitVec 9 → Instr) × Nat)),
    ∀ (r a : Reg) sg o, CheckedStore (p.1 r a sg o) r a sg p.2 (scaled o p.2)) ∧
  (∀ (a : Reg) sg o,
    CheckedAccess (.ldqw a sg o) [.src a] a sg .load 4 (scaled o 4) ∧ CheckedAccess (.ldqd a sg o) [.src a] a sg .load 8 (scaled o 8) ∧
    CheckedAccess (.stqw a sg o) [.src a] a sg .store 4 (scaled o 4) ∧ CheckedAccess (.stqd a sg o) [.src a] a sg .store 8 (scaled o 8)) ∧
  (∀ (r a : Reg) sg z c (k : BitVec 3), let n := if z then 8 else 4
    CheckedAccess (.lda r a sg z c k) [.src a, .dst r] a sg .load n (ordered k n) ∧ CheckedStore (.stl r a sg z c k) r a sg n (ordered k n)) ∧
  (∀ i ∈ ([.aadd, .aand, .aor, .axor, .amin, .amax, .aminu, .amaxu, .aswp] :
      List (Reg → Reg → Bool → Scope → AOrd → BitVec 2 → Instr)), ∀ (d a : Reg) z c r (g : BitVec 2),
    CheckedAccess (i d a z c r g) [.src a, .both d] a (g.setWidth 3) .atomic (if z then 8 else 4) id) ∧
  (∀ (d a : Reg) z c r (g : BitVec 2),
    CheckedAccess (.acas d a z c r g) [.src a, .grp d 2] a (g.setWidth 3) .atomic (if z then 8 else 4) id) ∧
  (∀ sg (a : Reg), CheckedAccess (.cflush sg a) [.src a] a sg .load 1 id ∧ CheckedAccess (.cinv sg a) [.src a] a sg .load 1 id) ∧
  (∀ (d a : Reg) sg p s t x s1 code v, Issues s t → Checked [.src a, .vec d] s → Reads a s x s1 →
    let eo := fun l => x + BitVec.ofNat 64 (4 * l)
    (LanesFail s1 sg .vload x eo p code v → Traps (.vld d a sg p) s t code v) ∧
    (LanesFail s1 sg .vstore x eo p code v → Traps (.vst d a sg p) s t code v)) ∧
  (∀ (d a : Reg) sg (k : BitVec 4) p s t x y s1 s2 code v, Issues s t → Checked [.src a, .src (k.setWidth 7), .vec d] s →
    Reads a s x s1 → Reads (k.setWidth 7) s1 y s2 → LanesFail s2 sg .vload x (fun l => x + BitVec.ofNat 64 l * y) p code v →
    Traps (.vlds d a sg k p) s t code v) ∧
  (∀ (d a : Reg) sg (i : BitVec 4) p s t x s1 code v, Issues s t → Checked [.src a, .vec (i.setWidth 7), .vec d] s →
    Reads a s x s1 → let eo := fun l => x + (laneAt s1 (coreOf s1.cur) (self s1) (i.setWidth 7) l).signExtend 64
    (LanesFail s1 sg .vload x eo p code v → Traps (.vgath d a sg i p) s t code v) ∧
    (LanesFail s1 sg .vstore x eo p code v → Traps (.vscat d a sg i p) s t code v))

/-! ### Streams, caches, basins and towlines (spec/13_isa_memory.md, spec/04_basins.md, spec/09_towline.md) -/

namespace Sys2Proof.Claims

/-- What a register of a group of one holds (R156). -/
def argOf (s : State) (r : Reg) (k : Nat) : Word := (self s).regs.getD (r.toNat + k) 0

/-- An instruction answers a value in d, from a state, and goes on. -/
def Answers (i : Instr) (s s1 : State) (d : Reg) (v : Word) : Prop :=
  ∀ s2, Writes d v s1 s2 → exec i s = .next (finish s2 .seq)

/-- An instruction traps exactly, with nothing else done. -/
def TrapsExactly (i : Instr) (s : State) (cause : Nat) (v : Word) : Prop :=
  exec i s = .next (enterTrap s s.cur cause false v 0 (self s).pc)

/-- R217, R219: a stream request word that is well formed for its element size. -/
def StreamWord (w : Word) : Prop :=
  fld w 63 62 = 0 ∧ fld w 59 48 = 0 ∧ fld w 61 60 ≠ 3 ∧ fld w 47 24 ≠ 0 ∧
    (BitVec.ofNat 24 (fld w 23 0)).toInt % (if fld w 61 60 = 2 then 8 else 4) = 0

/-- R217: binding a stream of a kind, from a segment with the class's rights: NEXT, CNT and STRIDE as the operands say,
nothing read yet. -/
def Binds (i : Reg → Reg → Reg → BitVec 3 → Instr) (kind : StreamKind) (c : Cls) : Prop :=
  ∀ (d a b : Reg) sg s t off w s1 s2, Issues s t → Checked [.src a, .src b] s → Reads a s off s1 → Reads b s1 w s2 →
    addrTrap s2 (self s2) sg.toNat c 0 0 1 = none →
    (StreamWord w → (∀ o, find (self s2).streams (d.toNat - 112) = some o → o.held = [] ∧ o.kind ≠ .arrival) →
      let st : Stream :=
        { kind := kind, esz := fld w 61 60, sg := sg.toNat, cnt := fld w 47 24, stride := BitVec.ofNat 24 (fld w 23 0), job := 0,
          next := off, elems := [], held := [] }
      exec (i d a b sg) s = .next (finish (modSelf s2 fun t => { t with streams := put t.streams (d.toNat - 112) st }) .seq)) ∧
    (¬ StreamWord w → TrapsExactly (i d a b sg) s 0x1D w)

end Sys2Proof.Claims

/-- R184, R217 to R219: STRM and STRX bind a read and a write stream, STRQ an arrival stream of a copy job that is not bound
yet; a request that is not well formed, or names no such job, traps STREAM-ARG with it. -/
def Obligations.StreamBindings : Prop :=
  Binds .strm .read .load ∧ Binds .strx .write .store ∧
  (∀ (d b : Reg) s t w s1, Issues s t → Checked [.src b] s → Reads b s w s1 →
    let c := coreOf s1.cur
    let fits := fun (j : Job) => jobUnit j = 1 ∧ bitOf j.c0 10 = true ∧ j.bound = false ∧
      destSize s1 (clusterOf c) j = some (if fld w 61 60 = 2 then 8 else 4)
    let well := fld w 63 62 = 0 ∧ fld w 59 48 = 0 ∧ fld w 61 60 ≠ 3 ∧ fld w 47 24 ≠ 0 ∧ fld w 23 16 = 0
    (∀ j, well → knownJob s1 c (fld w 15 0) = some j → fits j → find (self s1).streams (d.toNat - 112) = none →
      let st : Stream :=
        { kind := .arrival, esz := fld w 61 60, sg := 0, cnt := fld w 47 24, stride := 0, job := fld w 15 0,
          next := BitVec.ofNat 64 j.delivered, elems := [], held := [] }
      let s2 := modSelf s1 fun t => { t with streams := put t.streams (d.toNat - 112) st }
      exec (.strq d b) s = .next (finish (endArrivals (modJob s2 (clusterOf c) (fld w 15 0) fun j => { j with bound := true })
        (clusterOf c) (fld w 15 0)) .seq)) ∧
    (¬ well ∨ (∀ j, knownJob s1 c (fld w 15 0) = some j → ¬ fits j) → TrapsExactly (.strq d b) s 0x1D w))

namespace Sys2Proof.Claims

/-- R222: the clean words of the basin line that holds a byte become absent; its dirty words stay, and so does every byte of
storage. -/
def CleanDropped (s s' : State) (a : Nat) : Prop :=
  s'.mem = s.mem ∧ s'.threads = s.threads ∧ ∀ c clus sl tag, tagAt s a = some (c, clus, sl, tag) →
    ∃ tag', find (Machine.core s' c).tags (tagKey clus sl) = some tag' ∧ tag'.dm = tag.dm ∧ tag'.bn = tag.bn ∧
      tag'.v = tag.v &&& tag.dm

end Sys2Proof.Claims

/-- R220 to R222: PREF never traps on its address, and asks only for a fill, which its hint says: on GLOB `.l1` goes by the
core's L1 as a load's read of a line does, `.l2` and `.wr` to the line's home alone, where `.wr` takes back every half that the
host owns first, and `.l2` none; an ABSENT word of a line of an active basin is filled whatever the hint, and a line that no
basin maps is left alone. CFLUSH sends a global line's flush through the
store buffer and waits for it, and writes the dirty words of a basin line of its own core back; CINV drops the L1 copy of a global line, once the port has its
translation, and the clean words of a basin line. What names no line is left alone. -/
def Obligations.CacheMaintenance : Prop :=
  (∀ sg (a : Reg) h s t eo s1, Issues s t → Checked [.src a] s → Reads a s eo s1 →
    (¬ Passes s1 sg .load eo 1 → exec (.pref sg a h) s = .next (finish s1 .seq)) ∧
    (Passes s1 sg .load eo 1 →
      (kindAt s1 sg ∈ [Kind.lane, .chip, .remc, .dom] → exec (.pref sg a h) s = .next (finish s1 .seq)) ∧
      (kindAt s1 sg = .glob → exec (.pref sg a h) s = .next (finish (atPort (tick s1)
        { sentAccess s1 sg eo (.read (prefRead h)) .th with agent := .prefetch (coreOf s1.cur) }) .seq)) ∧
      (kindAt s1 sg = .core ∨ kindAt s1 sg = .clus →
        (∀ c clus sl tag, tagAt s1 (place (coreOf s1.cur) (kindAt s1 sg) 0 (addrAt s1 sg eo)) = some (c, clus, sl, tag) →
          exec (.pref sg a h) s = .next (finish (if tag.v ≠ BitVec.allOnes 32 ∧ (basin s1 c tag.bn).map (·.st) = some .active
            then startFill s1 c clus sl else s1) .seq)) ∧
        (tagAt s1 (place (coreOf s1.cur) (kindAt s1 sg) 0 (addrAt s1 sg eo)) = none →
          exec (.pref sg a h) s = .next (finish s1 .seq))))) ∧
  (∀ s r c h, r.agent = .prefetch c → r.op = .read (prefRead h) → r.cache = 0 →
    let q := tagged s r
    route s r = if h = 0 then l1Read (noteHoming s q) q 128 else post (noteHoming s r) (.requestAtHome (homeSlice r.home r.phys) r)) ∧
  (∀ s k x r c h, r.agent = .prefetch c → r.op = .read (prefRead h) → h ≠ 0 →
    let own := if h = 1 then [] else [0, 1].filter fun b => halfState x b == 2
    serveLine s k x r = if own = [] then serveRead s k x r (prefRead h) else backInvalidate s k x r own false) ∧
  (∀ sg (a : Reg) s t eo s1, Issues s t → Checked [.src a] s → Reads a s eo s1 → Passes s1 sg .load eo 1 →
    let at_ := place (coreOf s1.cur) (kindAt s1 sg) 0 (addrAt s1 sg eo)
    let basinSide := kindAt s1 sg = .core ∨ kindAt s1 sg = .clus
    (kindAt s1 sg = .glob → (self s1).outs.any (fun o => o.acq) = false → holds (self s1) = false →
      (Machine.core s1 (coreOf s1.cur)).sb.length < 32 →
      let e : SbEntry :=
        { slot := s1.cur, kind := .glob, tgt := 0, words := [(addrAt s1 sg eo, 1, 0)], flush := true, tx := s1.nextTx,
          swid := (self s1).swid, m := (self s1).level == .m }
      let s2 := enterBuffer s1 (coreOf s1.cur) [e]
      exec (.cflush sg a) s = .next (finish (waitIn s2 s1.cur (.flush s1.nextTx)) .stay)) ∧
    (basinSide → ∀ c clus sl tag, tagAt s1 at_ = some (c, clus, sl, tag) →
      (tag.dm &&& ~~~ tag.sent = 0 ∨ c ≠ coreOf s1.cur → exec (.cflush sg a) s = .next (finish s1 .seq)) ∧
      (tag.dm &&& ~~~ tag.sent ≠ 0 → c = coreOf s1.cur →
        let s2 := writeBackLines (tick s1) c (some s1.nextTx) [(tag.bn, clus, sl, tag.dm &&& ~~~ tag.sent)]
        exec (.cflush sg a) s = .next (finish (waitIn s2 s2.cur (.basin none none 0 s1.nextTx)) .stay))) ∧
    (basinSide → tagAt s1 at_ = none → exec (.cflush sg a) s = .next (finish s1 .seq)) ∧
    (kindAt s1 sg ∈ [Kind.lane, .chip, .remc, .dom] →
      exec (.cflush sg a) s = .next (finish s1 .seq) ∧ exec (.cinv sg a) s = .next (finish s1 .seq)) ∧
    (kindAt s1 sg = .glob →
      let c := coreOf s1.cur
      let q := { sentAccess s1 sg eo .flush .th with agent := .prefetch c }
      let known := tlbFind (cluster s1 (clusterOf c)).tlb q.cid q.addr
      (∀ e, known = some e → exec (.cinv sg a) s =
        .next (finish (l1Drop s1 c (if e.common then 0 else q.cid) ((e.pa + q.addr % e.size) / 128)) .seq)) ∧
      (known = none → exec (.cinv sg a) s = .next (finish (atPort (tick s1) q) .seq))) ∧
    (basinSide → ∃ s2, exec (.cinv sg a) s = .next (finish s2 .seq) ∧ CleanDropped s1 s2 at_))

namespace Sys2Proof.Claims

/-- R72: what BSNMAP's words ask for passes its checks: the scratchpad side and the global side, each of LEN bytes, aligned. -/
def MapPasses (s : State) (w goff : Word) : Prop :=
  let n := fld w 20 0
  fld w 53 41 = 0 ∧ n ≠ 0 ∧ n % 128 = 0 ∧
    addrTrap s (self s) (fld w 63 61) .basinScr (word (fld w 40 21)) n 128 = none ∧
    addrTrap s (self s) (fld w 60 58) .basinGlob goff n 128 = none ∧
    ((segOf (self s) (fld w 63 61)).base + (word (fld w 40 21)).toNat) % 128 = 0 ∧
    ((segOf (self s) (fld w 60 58)).base + goff.toNat) % 128 = 0

/-- R58, R70: the basin that they describe. -/
def mapped (s : State) (w goff : Word) : Basin :=
  { st := .active, clus := (segOf (self s) (fld w 63 61)).kind == .clus, cf := false, ow := false, sf := false,
    gva := (segOf (self s) (fld w 60 58)).base + goff.toNat,
    sbase := (segOf (self s) (fld w 63 61)).base + (word (fld w 40 21)).toNat, len := fld w 20 0 }

/-- The state of a descriptor; a descriptor never used is free. -/
def stateOf (s : State) (c bn : Nat) : BasinSt := ((basin s c bn).map fun b => b.st).getD .free

end Sys2Proof.Claims

/-- R57 to R59, R65, R70 to R75: mapping a basin (1: the descriptor is in use; 2: an overlap; 0: mapped, every word of its
lines absent, no byte of storage changed), writing its dirty words back, dropping it, and its status. -/
def Obligations.BasinInstructions : Prop :=
  (∀ (d a b : Reg) s t, Issues s t → Checked [.grp a 1, .grp b 1, .dst d] s → MapPasses s (argOf s a 0) (argOf s b 0) →
    let w := argOf s a 0
    let c := coreOf s.cur
    let nb := mapped s w (argOf s b 0)
    (stateOf s c (fld w 57 54) ≠ .free → Answers (.bsnmap d a b) s s d 1) ∧
    (stateOf s c (fld w 57 54) = .free → basinOverlap s c nb = true → Answers (.bsnmap d a b) s s d 2) ∧
    (stateOf s c (fld w 57 54) = .free → basinOverlap s c nb = false → ∃ s1, Answers (.bsnmap d a b) s s1 d 0 ∧
      s1.mem = s.mem ∧ s1.threads = s.threads ∧ basin s1 c (fld w 57 54) = some nb ∧
      ∀ l, nb.sbase / 128 ≤ l → l < nb.sbase / 128 + nb.len / 128 →
        (find (Machine.core s1 c).tags (tagKey nb.clus l)).map (fun g => (g.bn, g.fp, g.v, g.dm)) = some (fld w 57 54, false, 0, 0))) ∧
  (∀ (d a : Reg) s t, Issues s t → Checked [.grp a 1, .dst d] s → fld (argOf s a 0) 63 16 = 0 →
    let c := coreOf s.cur
    let ls := dirtyLines s c fun bn => bitOf (argOf s a 0) bn && decide (stateOf s c bn = .active)
    (ls = [] → Answers (.bsnsync d a) s s d 0) ∧
    (ls ≠ [] → let s1 := writeBackLines (tick s) c (some s.nextTx) ls
      exec (.bsnsync d a) s = .next (finish (waitIn s1 s1.cur (.basin (some d) none 0 s.nextTx)) .stay))) ∧
  (∀ wb, ∀ (d a : Reg) s t, Issues s t → Checked [.grp a 1, .dst d] s → fld (argOf s a 0) 63 4 = 0 →
    let i := if wb then Instr.bsndropWb d a else .bsndropNw d a
    let c := coreOf s.cur
    let bn := fld (argOf s a 0) 3 0
    let dropped := dropBasin (tick s) c bn wb (some s.nextTx)
    let s1 := freeDropped dropped c bn
    let inFlight := (Machine.core dropped c).wbs.any fun w => w.bn == bn
    (stateOf s c bn = .free → Answers i s s d (basinStatus s c bn)) ∧
    (stateOf s c bn = .dropping →
      exec i s = .next (finish (waitIn (tick s) s.cur (.basin (some d) (some bn) 0 s.nextTx)) .stay)) ∧
    (stateOf s c bn = .active → inFlight = true →
      exec i s = .next (finish (waitIn s1 s1.cur (.basin (some d) (some bn) 0 s.nextTx)) .stay)) ∧
    (stateOf s c bn = .active → inFlight = false →
      stateOf s1 c bn = .free ∧ Answers i s s1 d (((basin s1 c bn).map freeStatus).getD 0)) ∧
    (wb = false → dropped.mem = s.mem ∧ ∀ p ∈ (Machine.core dropped c).tags, p.2.bn ≠ bn)) ∧
  (∀ (d a : Reg) s t, Issues s t → Checked [.grp a 1, .dst d] s → fld (argOf s a 0) 63 9 = 0 → fld (argOf s a 0) 7 4 = 0 →
    let c := coreOf s.cur
    let bn := fld (argOf s a 0) 3 0
    Answers (.bsnqry d a) s (if bitOf (argOf s a 0) 8 then modBasin s c bn fun b => { b with cf := false, ow := false, sf := false }
      else s) d (basinStatus s c bn) ∧
    ∀ b, basin s c bn = some b → (Machine.core s c).tags.length ≤ 2048 + 8192 →
      bitOf (basinStatus s c bn) 61 = b.cf ∧ bitOf (basinStatus s c bn) 60 = b.ow ∧ bitOf (basinStatus s c bn) 59 = b.sf ∧
      bitOf (basinStatus s c bn) 58 = b.clus ∧
      fld (basinStatus s c bn) 63 62 = (match b.st with | .free => 0 | .active => 1 | .dropping => 2))

namespace Sys2Proof.Claims

/-- The handle word of a towline operation, and what it names (R150). -/
def HandleWord (s : State) (a : Reg) (hd : Nat) : Prop := fld (argOf s a 0) 63 8 = 0 ∧ fld (argOf s a 0) 7 0 = hd

/-- R148: a towline result: its status over the handle. -/
def towResult (st hd : Nat) : Word := BitVec.ofNat 64 (st * 2 ^ 56 + hd)

/-- A towline recording from the start, as a block describes it (R134, R145). -/
def Recording (s : State) (tow : Tow) (blk : List Word) (rs : List (Nat × Nat)) : Prop :=
  tow.st = .recording ∧ tow.cid = cidOf s (coreOf s.cur) ∧ tow.thr = fld (blk.getD 0 0) 47 32 ∧ tow.clusters = blockClusters blk ∧
    tow.ranges = rs ∧ tow.last = (0, 0, 0) ∧ tow.cum = (0, 0, 0) ∧ tow.pending = 0

end Sys2Proof.Claims

/-- R132 to R134, R144, R145, R147 to R151 (that TWREC, TWEND and TWDROP reach every slice in the step in which they issue,
behind the core's earlier requests, is log entry 19; PORTS before OVERLAP is log entry 50): recording a new towline, and an old
one anew, from the block that the operands name; closing a step at the 256 slices; ending, dropping, and reading a towline; 4 where the handle names none. -/
def Obligations.TowlineInstructions : Prop :=
  (∀ (d a b : Reg) s t blk s1 rs, Issues s t → Checked [.grp a 1, .grp b 1, .dst d] s →
    let w := argOf s a 0
    let w0 := blk.getD 0 0
    let cid := cidOf s1 (coreOf s1.cur)
    let ks := blockClusters blk
    fld w 60 9 = 0 → readBlock (fld w 63 61) (argOf s b 0) 21 s = .ok (blk, s1) →
    fld w0 63 48 = 0 → fld w0 31 4 = 0 → 0 < fld w0 3 0 → fld w0 3 0 ≤ 8 → badSet blk (flotillaClusters s1 (self s1)) = none →
    blockRanges blk (fld w0 3 0) s1 = .ok (rs, s1) → requestsOut s1 (coreOf s1.cur) (fun _ => true) = false →
    (bitOf w 8 = true → fld w 7 0 = 0 →
      (∀ i, lowestFree (die s1 (dieOf (coreOf s1.cur))).tows 64 = some i →
        let hd := dieOf (coreOf s1.cur) * 64 + i
        (portStatus s1 ks rs hd = 0 → ∃ tow, Recording s1 tow blk rs ∧ tow.step = 0 ∧ tow.flotilla = (self s1).flotilla ∧
          Answers (.twrecNew d a b) s (setTow (freeTowRecords s1 hd) hd tow) d (towResult 0 hd)) ∧
        (portStatus s1 ks rs hd ≠ 0 → Answers (.twrecNew d a b) s s1 d (towResult (portStatus s1 ks rs hd) 0))) ∧
      (lowestFree (die s1 (dieOf (coreOf s1.cur))).tows 64 = none → Answers (.twrecNew d a b) s s1 d (towResult 1 0))) ∧
    (bitOf w 8 = false →
      let hd := fld w 7 0
      (towFor s1 cid hd = none → Answers (.twrecRerecord d a b) s s1 d (towResult 4 hd)) ∧
      (∀ old, towFor s1 cid hd = some old → old.pending = 0 →
        (portStatus s1 ks rs hd = 0 → ∃ tow, Recording s1 tow blk rs ∧ tow.step = old.step ∧ tow.flotilla = old.flotilla ∧
          Answers (.twrecRerecord d a b) s (setTow (freeTowRecords s1 hd) hd tow) d (towResult 0 hd)) ∧
        (portStatus s1 ks rs hd ≠ 0 → Answers (.twrecRerecord d a b) s s1 d (towResult (portStatus s1 ks rs hd) hd))))) ∧
  (∀ (d a : Reg) s t hd, Issues s t → Checked [.grp a 1, .dst d] s → HandleWord s a hd →
    (towFor s (cidOf s (coreOf s.cur)) hd = none →
      Answers (.twend d a) s s d (towResult 4 hd) ∧ Answers (.twdrop d a) s s d (towResult 4 hd) ∧
      (release .th s = .ok ((), s) → Answers (.twstep d a) s s d (towResult 4 hd))) ∧
    (∀ tow, towFor s (cidOf s (coreOf s.cur)) hd = some tow → tow.pending = 0 →
      requestsOut s (coreOf s.cur) (fun _ => true) = false →
      Answers (.twend d a) s (if tow.st = .idle then s else setTow (freeTowRecords s hd) hd { tow with st := .idle, rp := false }) d
        (towResult 0 hd) ∧
      Answers (.twdrop d a) s (dropTow s hd) d (towResult 0 hd) ∧ towDesc (dropTow s hd) hd = none ∧
      (release .th s = .ok ((), s) → tow.st = .idle → Answers (.twstep d a) s s d (towResult 0 hd)) ∧
      (release .th s = .ok ((), s) → tow.st ≠ .idle →
        let s1 := postAll (setTow s hd { tow with pending := 256, sum := (0, 0, 0) })
          ((List.range 256).map fun h => .stepMessage h hd (some s.cur))
        exec (.twstep d a) s = .next (finish (waitIn s1 s.cur (.towline d hd 256)) .stay)))) ∧
  (∀ (d a : Reg) s t, Issues s t → Checked [.grp a 1, .dst d] s →
    let w := argOf s a 0
    let hd := fld w 7 0
    let counts := fun (c : Nat × Nat × Nat) => BitVec.ofNat 64 (c.1 * 2 ^ 42 + c.2.1 * 2 ^ 21 + c.2.2)
    fld w 63 10 = 0 →
    (towFor s (cidOf s (coreOf s.cur)) hd = none → fld w 9 8 ≠ 3 → Answers (.twstat d a) s s d (towResult 4 hd)) ∧
    (∀ tow, towFor s (cidOf s (coreOf s.cur)) hd = some tow →
      (fld w 9 8 = 0 → Answers (.twstat d a) s s d (towStatus tow 0)) ∧
      (fld w 9 8 = 1 → Answers (.twstat d a) s s d (counts tow.last)) ∧
      (fld w 9 8 = 2 → Answers (.twstat d a) s s d (counts tow.cum))))

/-! ### Traps, returns, registers and segments (spec/23_traps.md, spec/02_address_spaces.md, spec/26_translation.md) -/

namespace Sys2Proof.Claims

/-- The handler address of a thread's level (R351). -/
def handlerOf (s : State) (slot : Nat) (t : Thread) : Word :=
  if t.level = .m then (Machine.core s (coreOf slot)).mvec else t.tvec

/-- A thread in its handler: what it saved, its level, its pc; its registers and everything else as they were (R351). What its
instruction had popped before it parked waits for it (R155). -/
def Entered (s : State) (slot : Nat) (t : Thread) (cause tval tadr tpc : Word) (t' : Thread) : Prop :=
  t' = { t with tpc := tpc, cause := cause, tval := tval, tadr := tadr, pp := t.level, inh := true,
                level := if t.level = .m then .m else .s, pc := handlerOf s slot t, status := .ready, blk := [], landed := none,
                kept := [], pops := [], aside := if t.kept = [] then t.aside else (tpc, t.level, t.kept) :: t.aside }

end Sys2Proof.Claims

/-- R351 to R353: taking a trap: with INH = 0 the thread saves its pc, cause (asynchronous ones with bit 8 set), value and
address, and goes on in S, or stays in M, at the handler. It leaves the inbox's line, and nothing else of the machine changes
where no touch of the thread waits for a basin fill; where one does, it leaves that line too, and those behind it may go on,
with no register, no byte of storage and nothing outside the two lines changed. With INH = 1 an exact trap ends the thread, and
a DOUBLE record is raised; an asynchronous one is held. -/
def Obligations.TrapEntry : Prop :=
  (∀ s slot t cause asy tval tadr tpc, thr s slot = some t → t.inh = false →
    let s' := enterTrap s slot cause asy tval tadr tpc
    let outOfLine := fun (x : Machine.Core) => { x with ibWait := x.ibWait.filter fun w => w != slot }
    ∃ t', Entered s slot t (BitVec.ofNat 64 (cause + if asy then 256 else 0)) tval tadr tpc t' ∧ thr s' slot = some t' ∧
      ((∀ x ∈ (cluster s (clusterOf (coreOf slot))).touches, x.who ≠ .slot slot) →
        s' = modCore (setThr s slot t') (coreOf slot) outOfLine) ∧
      (∃ ts du cl, s' = modCore { s with threads := ts, due := du, clusters := cl } (coreOf slot) outOfLine) ∧
      (∀ k, k ≠ slot → thr s k = none → thr s' k = none) ∧
      ∀ k x, k ≠ slot → thr s k = some x → ∃ st ld, thr s' k = some { x with status := st, landed := ld }) ∧
  (∀ s slot t cause tval tadr (tpc : Word), thr s slot = some t → t.inh = true →
    enterTrap s slot cause false tval tadr tpc = raiseFault (endThread s slot true) (cidOf s (coreOf slot))
      (faultRec 4 0 (tpc.toNat % 2 ^ 52) t.swid 0 slot 0 0 cause 0)) ∧
  (∀ s slot t, thr s slot = some t → t.inh = true → t.pend ≠ [] → deliverAsync s slot = s)

namespace Sys2Proof.Claims

/-- R86, R355: what a return leaves of a thread's queues: a return to a lower level discards the set of the level left. -/
def queuesAfter (t : Thread) (l : Level) : Queues :=
  if levelCode t.pp < levelCode t.level ∧ l = t.level then { ld := [], sd := [], addrs := [] } else queuesOf t l

end Sys2Proof.Claims

/-- R86, R350, R351, R353, R355: TRAP and BRK take SOFTWARE and BREAKPOINT with their code as value, and save the pc of the
next instruction. ERET returns to the saved level and pc with INH = 0; the oldest pending asynchronous trap is taken before
the next instruction; in U it traps PRIVILEGE with its word. -/
def Obligations.TrapsAndReturns : Prop :=
  (∀ k s t, Issues s t → t.inh = false →
    (∃ s' t', exec (.trap k) s = .next s' ∧ thr s' s.cur = some t' ∧
      Entered s s.cur t 0x06 (k.setWidth 64) 0 (t.pc + 4) t' ∧ s'.mem = s.mem ∧
      (NothingWaits s → ∀ j, j ≠ s.cur → thr s' j = thr s j)) ∧
    (∃ s' t', exec (.brk k) s = .next s' ∧ thr s' s.cur = some t' ∧
      Entered s s.cur t 0x07 (k.setWidth 64) 0 (t.pc + 4) t' ∧ s'.mem = s.mem ∧
      (NothingWaits s → ∀ j, j ≠ s.cur → thr s' j = thr s j))) ∧
  (∀ s t, Issues s t → t.level ≠ .u → t.pend = [] → t.stalled = [] → ∃ s' t', exec .eret s = .next s' ∧ thr s' s.cur = some t' ∧
    t'.pc = t.tpc ∧ t'.level = t.pp ∧ t'.inh = false ∧ t'.status = .ready ∧ t'.regs = t.regs ∧ t'.segs = t.segs ∧
    t'.tpc = t.tpc ∧ t'.cause = t.cause ∧ t'.tval = t.tval ∧ t'.tadr = t.tadr ∧ (∀ l, queuesOf t' l = queuesAfter t l) ∧
    s'.mem = s.mem ∧ ∀ k, k ≠ s.cur → thr s' k = thr s k) ∧
  (∀ s t a rest, Issues s t → t.level ≠ .u → t.pend = a :: rest → t.stalled = [] → ∃ s' t', exec .eret s = .next s' ∧
    thr s' s.cur = some t' ∧ t'.pend = rest ∧ t'.cause = BitVec.ofNat 64 (a.cause + 256) ∧ t'.tval = a.tval ∧ t'.tadr = a.tadr ∧
    t'.tpc = t.tpc ∧ t'.pp = t.pp ∧ t'.inh = true ∧ t'.level = (if t.pp = .m then .m else .s) ∧
    t'.pc = (if t.pp = .m then (Machine.core s (coreOf s.cur)).mvec else t.tvec)) ∧
  (∀ s t, Issues s t → t.level = .u → TrapsExactly .eret s 0x03 0xF0000003)

namespace Sys2Proof.Claims

/-- The system registers as MFS reads them (R176, R210, R354, R394). -/
def registerValue (s : State) (t : Thread) (c : Core) (n : Nat) : Word :=
  if n = 0x000 then t.tvec else if n = 0x001 then t.tpc else if n = 0x002 then t.cause else if n = 0x003 then t.tval
  else if n = 0x004 then t.tadr
  else if n = 0x005 then BitVec.ofNat 64 ((match t.pp with | .u => 0 | .s => 4 | .m => 8) + (if t.inh then 2 else 0) + if t.frc then 1 else 0)
  else if n = 0x008 then BitVec.ofNat 64 (t.lsz * 2 ^ 32 + t.lbase * 2 ^ 23 + t.regs.length * 2 ^ 11 + t.rbase)
  else if n = 0x009 then t.spt else if n = 0x00A then t.vrm else if n = 0x00B then c.slc else if n = 0x00C then c.slto
  else if n = 0x010 then c.ydl else if n = 0x011 then (if c.tchg then 0x8000000000000000 else 0)
  else if n = 0x018 then t.jsel
  else if 0x019 ≤ n ∧ n ≤ 0x01C then journalWord (find c.journal t.jsel.toNat) (n - 0x019)
  else if n = 0x020 then c.fq else if n = 0x021 then c.ctxa else if n = 0x022 then c.dtv
  else if n = 0x100 then c.mvec
  else if n = 0x101 then mgStat s.pkg
  else if n = 0x102 then s.pkg.hotBase else if n = 0x103 then s.pkg.hotCtl else (die s (dieOf (coreOf s.cur))).tblArea

/-- The lowest level that may read a register, as a number (R354). -/
def readLevel (n : Nat) : Nat := if n = 0x005 ∨ n = 0x101 ∨ 0x008 ≤ n ∧ n ≤ 0x00C then 0 else if 0x100 ≤ n then 2 else 1

/-- A write of register n that nothing makes wait: from its level on it takes the value, or traps SYSREG-VALUE with a value
that it refuses; below it PRIVILEGE (R354, R355). -/
def MtsOnce (n : BitVec 14) (lvl : Nat) (free : State → Word → Prop) (ok : State → Word → Prop) (f : State → Word → State) : Prop :=
  ∀ d s t, Issues s t → Checked [.src d] s →
    (lvl ≤ levelCode t.level → ∀ v s1, Reads d s v s1 → free s1 v →
      (ok s1 v → exec (.mts d n) s = .next (finish (f s1 v) .seq)) ∧ (¬ ok s1 v → TrapsExactly (.mts d n) s 0x05 v)) ∧
    (levelCode t.level < lvl → TrapsExactly (.mts d n) s 0x03 (instrWord (.mts d n)))

/-- A write that never waits. -/
def Mts (n : BitVec 14) (lvl : Nat) (ok : State → Word → Prop) (f : State → Word → State) : Prop :=
  MtsOnce n lvl (fun _ _ => True) ok f

/-- A write of the thread's or the core's part. -/
def own (f : Word → Thread → Thread) (s : State) (v : Word) : State := modSelf s (f v)
def ofCore (f : Word → Machine.Core → Machine.Core) (s : State) (v : Word) : State := modCore s (coreOf s.cur) (f v)

/-- Any value is taken. -/
def anyValue : State → Word → Prop := fun _ _ => True
/-- A pc or vector: bits 1:0 are 0. -/
def aligned : State → Word → Prop := fun _ v => fld v 1 0 = 0

end Sys2Proof.Claims

/-- R350, R354, R355: MFS reads every readable register at its level, and traps PRIVILEGE below it, writing no register but
d. -/
def Obligations.SystemRegisterReads : Prop :=
  ∀ d k s t, Issues s t → readable k = true → Checked [.dst d] s →
    (readLevel k.toNat ≤ levelCode t.level → Answers (.mfs d k) s s d (registerValue s t (Machine.core s (coreOf s.cur)) k.toNat)) ∧
    (levelCode t.level < readLevel k.toNat → TrapsExactly (.mfs d k) s 0x03 (instrWord (.mfs d k)))

/-- R297, R350, R354, R355, R358, R361: MTS writes every writable register; each says which values it takes, and what of
them it keeps. -/
def Obligations.SystemRegisterWrites : Prop :=
  Mts 0x000 1 aligned (own fun v t => { t with tvec := v }) ∧ Mts 0x001 1 aligned (own fun v t => { t with tpc := v }) ∧
  Mts 0x002 1 anyValue (own fun v t => { t with cause := v &&& 0x1FF }) ∧ Mts 0x003 1 anyValue (own fun v t => { t with tval := v }) ∧
  Mts 0x004 1 anyValue (own fun v t => { t with tadr := v }) ∧
  Mts 0x005 1 (fun s v => fld v 3 2 ≠ 3 ∧ fld v 3 2 ≤ levelCode (self s).level) (fun s v =>
    let s1 := modSelf s fun t => { t with pp := (if fld v 3 2 = 0 then .u else if fld v 3 2 = 1 then .s else .m), inh := bitOf v 1 }
    postAll s1 ((self s).pend.map fun _ => .asyncTrapDelivery s.cur)) ∧
  Mts 0x009 0 (fun _ v => fld v 6 0 % 8 = 0 ∧ 8 ≤ fld v 6 0 ∧ fld v 6 0 ≤ 112 ∧ fld v 15 8 % 8 = 0 ∧ fld v 15 8 ≤ 128)
    (own fun v t => { t with spt := v &&& 0xFF7F }) ∧
  Mts 0x00A 0 anyValue (own fun v t => { t with vrm := v &&& 3 }) ∧
  Mts 0x00B 0 (fun s v => slcOk s (coreOf s.cur) v = true) (ofCore fun v c => { c with slc := v &&& 0x7F7F7F7F7F }) ∧
  Mts 0x00C 0 anyValue (ofCore fun v c => { c with slto := v &&& 0xFFFFFFFF }) ∧
  Mts 0x010 1 anyValue (ofCore fun v c => { c with ydl := v &&& 0xFFFF }) ∧
  MtsOnce 0x011 1 (fun s v => notFree s (changeVisits s (coreOf s.cur) v) = false)
      (fun s v => (requestChange s (coreOf s.cur) v).isSome = true)
      (fun s v => (requestChange s (coreOf s.cur) v).getD s) ∧
  Mts 0x012 1 (fun s v => (cluster s (fld v 23 16)).cid = cidOf s (coreOf s.cur))
    (fun s v => match jobAt s (fld v 23 16) (fld v 15 0) with
      | some j => if j.st = .stopped ∧ j.parked ≠ [] ∧ ((jobUnit j = 0) ↔ bitOf v 24 = false) then
          post s (.jobResume (fld v 23 16) (fld v 15 0)) else s
      | none => s) ∧
  Mts 0x018 1 anyValue (own fun v t => { t with jsel := v &&& 0x1F }) ∧
  Mts 0x01D 1 (fun s v => ∃ j, find (Machine.core s (coreOf s.cur)).journal (fld v 4 0) = some j ∧ (j.ref = true ∨ j.code = 7))
    (fun s v => post (modCore s (coreOf s.cur) fun c => { c with journal := del c.journal (fld v 4 0) }) (.storeDrain (coreOf s.cur))) ∧
  Mts 0x100 2 anyValue (ofCore fun v c => { c with mvec := v }) ∧
  Mts 0x102 2 anyValue (fun s v => modPkg s fun p => { p with hotBase := v &&& 0x3FFFFFFFF000 }) ∧
  Mts 0x103 2 anyValue setHotCtl ∧
  Mts 0x104 2 (fun _ v => 20 ≤ fld v 5 0 ∧ fld v 5 0 ≤ 36)
    (fun s v => modDie s (dieOf (coreOf s.cur)) fun d => { d with tblArea := v &&& 0x3FFFFFFF003F })

namespace Sys2Proof.Claims

/-- R17, R18: a descriptor that SEGLD takes, word by word. -/
def SegWord0 (s0 : Word) : Prop :=
  fld s0 63 60 = 0 ∧ fld s0 2 0 = 0 ∧ (fld s0 54 52 = 0 → fld s0 59 55 = 0 ∧ fld s0 51 0 = 0)
def SegWord1 (s0 s1 : Word) : Prop :=
  fld s1 63 60 = 0 ∧ (fld s1 59 52 ≠ 0 → fld s0 54 52 = 6 ∨ fld s0 54 52 = 7) ∧ (fld s0 54 52 = 7 → fld s1 59 52 < 64) ∧
    fld s0 51 0 + fld s1 51 0 ≤ kindSize (kindOf (fld s0 54 52))

/-- R362: a PINV request that is well formed. -/
def PinvWord (w v : Word) : Prop :=
  fld w 63 62 ≠ 0 ∧ fld w 63 62 ≠ 3 ∧ fld w 61 60 < 2 ∧ fld w 57 12 = 0 ∧ (fld w 61 60 = 0 → fld v 63 52 = 0)

end Sys2Proof.Claims

/-- R17, R18, R350, R362, R374, R375 (that PINV in U traps PRIVILEGE before its request word is read is log entry 23): SEGLD
writes one segment register or traps SEGMENT-FORMAT with the word that is wrong; SEGRD reads one; PINV, once its waits are over, asks every cluster's port and waits for 256 answers. What U, or S for
another partition or for stage 2, may not do traps. -/
def Obligations.SegmentsAndInvalidation : Prop :=
  (∀ sg (a : Reg) s t, Issues s t → Checked [.grp a 2] s →
    let g : Seg := { s0 := argOf s a 0, s1 := argOf s a 1 }
    (t.level = .u → TrapsExactly (.segld sg a) s 0x03 (instrWord (.segld sg a))) ∧
    (t.level ≠ .u → SegWord0 g.s0 → SegWord1 g.s0 g.s1 →
      exec (.segld sg a) s = .next (finish (modSelf s fun t => { t with segs := t.segs.set sg.toNat g }) .seq)) ∧
    (t.level ≠ .u → ¬ SegWord0 g.s0 → TrapsExactly (.segld sg a) s 0x08 0) ∧
    (t.level ≠ .u → SegWord0 g.s0 → ¬ SegWord1 g.s0 g.s1 → TrapsExactly (.segld sg a) s 0x08 1)) ∧
  (∀ (d : Reg) sg s t, Issues s t → Checked [.grp d 2] s → d.toNat + 2 ≤ t.regs.length → NothingWaits s →
    ∃ s' t', exec (.segrd d sg) s = .next s' ∧ OthersKept s s' ∧ thr s' s.cur = some t' ∧ OnlyRegs t t' ∧ t'.pc = t.pc + 4 ∧
      t'.regs = (t.regs.set d.toNat (segOf t sg.toNat).s0).set (d.toNat + 1) (segOf t sg.toNat).s1) ∧
  (∀ (d a b : Reg) s t w v s1 s2, Issues s t → Checked [.src a, .src b, .dst d] s →
    (t.level = .u → TrapsExactly (.pinv d a b) s 0x03 (instrWord (.pinv d a b))) ∧
    (t.level ≠ .u → Reads a s w s1 → Reads b s1 v s2 →
      (¬ PinvWord w v → TrapsExactly (.pinv d a b) s 0x09 w) ∧
      (PinvWord w v → t.level = .s → fld w 63 62 = 2 → TrapsExactly (.pinv d a b) s 0x03 (instrWord (.pinv d a b))) ∧
      (PinvWord w v → t.level = .s → fld w 63 62 = 1 → fld w 11 0 ≠ cidOf s2 (coreOf s2.cur) → TrapsExactly (.pinv d a b) s 0x09 w) ∧
      (PinvWord w v → (t.level = .m ∨ fld w 63 62 = 1 ∧ fld w 11 0 = cidOf s2 (coreOf s2.cur)) → release .pk s2 = .ok ((), s2) →
        let s3 := postAll s2 ((List.range 256).map fun k => .pinvAccept k s2.cur w v)
        exec (.pinv d a b) s = .next (finish (waitIn s3 s2.cur (.pinv d 256)) .stay))))

/-! ### Threads, groups, messages, tables and jobs (spec/18_isa_tasks.md, spec/20_answer_table.md, spec/16_matrix.md) -/

namespace Sys2Proof.Claims

/-- R283: a result word: a status over other bits. -/
def status (st rest : Nat) : Word := BitVec.ofNat 64 (st * 2 ^ 56 + rest)

/-- The narrowest scope with both cores (R284). -/
def SpawnScope (c x : Nat) (sc : Scope) : Prop :=
  sc = if c = x then .co else if c / 8 = x / 8 then .cl else if c / 512 = x / 512 then .di else .pk

/-- A wake reaches a thread (R289, R290): a sleeper goes on; any other has its wake bit set. -/
def Woken (t t' : Thread) : Prop :=
  (t.status = .wait .sleep → t' = { goesOn t (t.pc + 4) with resume := none }) ∧
  (waitOf t ≠ some .sleep → t' = { t with wakeBit := true })

end Sys2Proof.Claims

/-- R282 to R292: SPAWN asks the target core and waits for the answer; EXIT ends the thread; YIELD, SLEEP and WAKE of the three
kinds; TID; FLAUNCH enters a launch, or answers 1 with the queue full. -/
def Obligations.ThreadInstructions : Prop :=
  (∀ (d a b : Reg) s t sc, Issues s t → Checked [.grp a 4, .grp b 2, .dst d] s →
    let w := argOf s b 0
    let x := fld w 10 0
    fld w 31 11 = 0 →
    ((cluster s (clusterOf (coreOf s.cur))).acc.getLsbD (clusterOf x) = false → TrapsExactly (.spawn d a b) s 0x15 (word (clusterOf x))) ∧
    ((cluster s (clusterOf (coreOf s.cur))).acc.getLsbD (clusterOf x) = true → SpawnScope (coreOf s.cur) x sc →
      release sc s = .ok ((), s) →
      let q : SpawnReq :=
        { from_ := s.cur, target := x, swid := fld w 63 32, pc := argOf s b 1, args := [argOf s a 0, argOf s a 1, argOf s a 2, argOf s a 3],
          rsz := fld t.spt 6 0, lsz := fld t.spt 15 8, spt := t.spt, segs := t.segs.map fun g => (g.s0, g.s1),
          level := levelCode t.level, tvec := t.tvec, flotilla := t.flotilla }
      exec (.spawn d a b) s = .next (finish (waitIn (post s (.spawnArrival q)) s.cur (.spawn d)) .stay))) ∧
  (∀ s t, Issues s t → t.handler = none → exec .exit s = .next (endThread s s.cur (t.inh && t.level != .u))) ∧
  (∀ s t, Issues s t → t.handler = none → t.groups = [] → t.frames = [] → t.cursors = [] → t.streams = [] →
    ∃ s', exec .exit s = .next s' ∧ thr s' s.cur = none ∧ s'.mem = s.mem) ∧
  (∀ s t, Issues s t → (∀ f, find s.flotillas t.flotilla = some f → f.next = none) → .slotLending s.cur ∉ s.due →
    exec .yield s = .next (modSelf s fun t => { t with pc := t.pc + 4, status := .ready, pops := [] })) ∧
  (∀ (a : Reg) s t n s1, Issues s t → Checked [.src a] s → Reads a s n s1 →
    ((self s1).wakeBit = true → exec (.sleep a) s = .next (finish (modSelf s1 fun t => { t with wakeBit := false }) .seq)) ∧
    ((self s1).wakeBit = false → n = 0 → exec (.sleep a) s = .next (finish (waitIn (post s1 (.slotGrant (coreOf s1.cur))) s1.cur .sleep) .stay)) ∧
    ((self s1).wakeBit = false → n ≠ 0 →
      exec (.sleep a) s = .next (finish (waitIn (post (postTimer s1 (.sleepLimit s1.cur)) (.slotGrant (coreOf s1.cur))) s1.cur .sleep) .stay))) ∧
  (∀ (d a : Reg) s t w s1, Issues s t → Checked [.src a, .dst d] s → Reads a s w s1 → fld w 61 32 = 0 →
    let c := coreOf s1.cur
    let k := fld w 16 0
    (fld w 63 62 = 0 → fld w 31 17 = 0 →
      ((cluster s1 (clusterOf c)).acc.getLsbD (clusterOf (coreOf k)) = false → Answers (.wakeSlot d a) s s1 d (status 10 0)) ∧
      ((cluster s1 (clusterOf c)).acc.getLsbD (clusterOf (coreOf k)) = true →
        (∀ u, thr s1 k = some u → cidOf s1 (coreOf k) = cidOf s1 c → ∃ u', Woken u u' ∧
          Answers (.wakeSlot d a) s (dropTimer (setThr s1 k u') (.sleepLimit k)) d (status 0 0)) ∧
        (thr s1 k = none ∨ cidOf s1 (coreOf k) ≠ cidOf s1 c → Answers (.wakeSlot d a) s s1 d (status 6 0)))) ∧
    (fld w 63 62 = 1 →
      let p := wakeSwids s1 (cidOf s1 c) (fld w 31 0)
      Answers (.wakeSwid d a) s p.1 d (status (if p.2 then 0 else 6) 0) ∧
      (p.2 = true ↔ (∃ u ∈ s1.threads, u.2.swid = fld w 31 0 ∧ cidOf s1 (coreOf u.1) = cidOf s1 c) ∨
        ∃ u ∈ s1.saved, u.thread.swid = fld w 31 0 ∧ cidOf s1 u.core = cidOf s1 c)) ∧
    (fld w 63 62 = 2 → t.level ≠ .u → (self s1).level = t.level →
      let p := wakeParked s1 (cidOf s1 c) (fld w 31 0)
      Answers (.wakeParked d a) s p.1 d (status (if p.2 then 0 else 6) 0))) ∧
  (∀ (d : Reg) s t, Issues s t → Checked [.dst d] s → Answers (.tid d) s s d (BitVec.ofNat 64 (t.swid * 2 ^ 32 + s.cur))) ∧
  (∀ (d a : Reg) s t w s1 desc s2, Issues s t → Checked [.src a, .dst d] s → Reads a s w s1 → fld w 60 52 = 0 →
    readBlock (fld w 63 61) (word (fld w 51 0)) 16 s1 = .ok (desc, s2) →
    (∀ i, descBad desc = some i → TrapsExactly (.flaunch d a) s 0x1F (word i)) ∧
    (descBad desc = none → release .pk s2 = .ok ((), s2) →
      (∀ s3 id, enterLaunch s2 (cidOf s2 (coreOf s2.cur)) desc = some (s3, id) →
        Answers (.flaunch d a) s (post s3 (.counterPoll (cidOf s2 (coreOf s2.cur)))) d (status 0 id)) ∧
      (enterLaunch s2 (cidOf s2 (coreOf s2.cur)) desc = none → Answers (.flaunch d a) s s2 d (status 1 0))))

/-- R283, R293 to R299 (a SLUICE of a flotilla that is being handed over counts by what was saved with it: the model's choice,
log entry 49): JOIN, LEAVE, GBAR, GCNT and SLUICE: what each answers at once (12: no member, or one already; 4: four
memberships; 11: another partition's group; 10: no such sluice), and the arrival of a member or a participant. -/
def Obligations.GroupInstructions : Prop :=
  (∀ (d a : Reg) s t w s1, Issues s t → Checked [.src a, .dst d] s → Reads a s w s1 → fld w 63 14 = 0 →
    let g := fld w 13 0
    let me_ := self s1
    let cid := cidOf s1 (coreOf s1.cur)
    (me_.groups.contains g = true → Answers (.join d a) s s1 d (status 12 0)) ∧
    (me_.groups.contains g = false → 4 ≤ me_.groups.length → Answers (.join d a) s s1 d (status 4 0)) ∧
    (me_.groups.contains g = false → me_.groups.length < 4 →
      (∀ r, groupRec s1 g = some r → r.cid ≠ cid → Answers (.join d a) s s1 d (status 11 0)) ∧
      (∀ r, groupRec s1 g = some r → r.cid = cid → r.ac ≠ 0 → exec (.join d a) s = .next (finish (waitIn s1 s1.cur (.join d g)) .stay)) ∧
      (∀ r, groupRec s1 g = some r → r.cid = cid → r.ac = 0 →
        Answers (.join d a) s (modSelf (setGroup s1 g { r with mc := r.mc + 1 }) fun t => { t with groups := t.groups ++ [g] }) d
          (status 0 0)) ∧
      (groupRec s1 g = none →
        Answers (.join d a) s (modSelf (setGroup s1 g { cid := cid, mc := 1, ac := 0, gen := 0 }) fun t =>
          { t with groups := t.groups ++ [g] }) d (status 0 0))) ∧
    (me_.groups.contains g = true →
      Answers (.leave d a) s (leaveGroup (modSelf s1 fun t => { t with groups := t.groups.erase g }) g false) d (status 0 0)) ∧
    (me_.groups.contains g = false → Answers (.leave d a) s s1 d (status 12 0)) ∧
    (∀ r, groupRec s1 g = some r → r.cid = cid →
      Answers (.gcnt d a) s s1 d (status 0 (r.mc * 2 ^ 34 + r.ac * 2 ^ 17 + r.gen))) ∧
    ((∀ r, groupRec s1 g = some r → r.cid ≠ cid) → Answers (.gcnt d a) s s1 d (status 11 0))) ∧
  (∀ (d a : Reg) s t w s1, Issues s t → Checked [.src a, .dst d] s → Reads a s w s1 → fld w 63 19 = 0 → fld w 15 14 = 0 →
    fld w 18 16 ≠ 7 →
    let g := fld w 13 0
    let sc := scopeOfCode (fld w 18 16)
    ((self s1).groups.contains g = false → Answers (.gbar d a) s s1 d (status 12 0)) ∧
    ((self s1).groups.contains g = true → release sc s1 = .ok ((), s1) → ∀ r, groupRec s1 g = some r →
      let s2 := waitIn s1 s1.cur (.gbar d g sc r.gen)
      (r.ac + 1 ≠ r.mc → exec (.gbar d a) s = .next (finish (setGroup s2 g { r with ac := r.ac + 1 }) .stay)) ∧
      (r.ac + 1 = r.mc → exec (.gbar d a) s = .next (finish (releaseGroup s2 g { r with ac := r.ac + 1 }) .stay)))) ∧
  (∀ (d a : Reg) s t w s1, Issues s t → Checked [.src a, .dst d] s → Reads a s w s1 → fld w 63 5 = 0 →
    (bitOf w 4 = false → fld w 3 0 < 4) →
    let c := coreOf s1.cur
    let named := (bitOf w 4 = true → treeIndex s1 (self s1).flotilla = some (fld w 3 0)) ∧
      countFor s1 c (self s1) (bitOf w 4) (fld w 3 0) ≠ 0
    (¬ named → Answers (.sluice d a) s s1 d (status 10 0)) ∧
    (named → release (if bitOf w 4 then .pk else .cl) s1 = .ok ((), s1) →
      exec (.sluice d a) s = .next (finish (settleSluice (waitIn s1 s1.cur (.sluice d (bitOf w 4) (fld w 3 0) false)) c (bitOf w 4) (fld w 3 0)) .stay)))

namespace Sys2Proof.Claims

/-- A thread that waited in a barrier, once it is released: the generation answered, and its next instruction next; one that
was PARKED meanwhile on an earlier access stays so. -/
def released (t : Thread) (d : Reg) (gen : Nat) : Thread :=
  { goesOn (wrReg t d.toNat (status 0 gen)) (t.pc + 4) with
    status := if t.status = .parked then .parked else .ready, resume := none }

end Sys2Proof.Claims

/-- R295, R360: the last arrival of a barrier releases it: the record has one more generation and no arrivals, and every thread
that waited in that generation, resident or saved, PARKED on an earlier access or not, answers its number and goes on, no other
thread changed, while no thread waits in JOIN on the group; a saved one that is not PARKED may be restored. -/
def Obligations.BarrierRelease : Prop :=
  ∀ s g (r : Group), joinWaiters s g = [] →
    let s' := releaseGroup s g r
    groupRec s' g = some { r with ac := 0, gen := (r.gen + 1) % 2 ^ 16 } ∧ s'.mem = s.mem ∧ s'.saved.length = s.saved.length ∧
    (∀ k t, thr s k = some t →
      (∀ d sc, waitOf t = some (.gbar d g sc r.gen) → thr s' k = some (released t d r.gen)) ∧
      ((∀ d sc, waitOf t ≠ some (.gbar d g sc r.gen)) → thr s' k = some t)) ∧
    ∀ (i : Nat) (c : Saved), s.saved[i]? = some c →
      (∀ d sc, waitOf c.thread = some (.gbar d g sc r.gen) → ∃ c' : Saved, s'.saved[i]? = some c' ∧ c'.core = c.core ∧ c'.slot = c.slot ∧
        c'.thread = released c.thread d r.gen ∧
        (c.thread.status ≠ .parked → c'.wakeDue = true ∧ (c.wakeDue = false → Event.slotGrant c.core ∈ s'.due))) ∧
      ((∀ d sc, waitOf c.thread ≠ some (.gbar d g sc r.gen)) → s'.saved[i]? = some c)

namespace Sys2Proof.Claims

/-- What a name leads to, through stubs. -/
def leadsTo (s : State) (name n : Nat) (e : Endpoint) : Prop :=
  epLead s (cidOf s (coreOf s.cur)) maxStubs name = some n ∧ epFind s (cidOf s (coreOf s.cur)) n = some e
def leadsNowhere (s : State) (name : Nat) : Prop :=
  ∀ n e, ¬ leadsTo s name n e

end Sys2Proof.Claims

/-- R300, R304, R306, R307: SEND leaves its words on their way, or answers 1 with the core's send queue full; RECV and RECVT
answer where the oldest message stands, or wait, RECVT no longer than its limit; RACK moves the ring's HEAD on. A name with
bits above 31 traps TASK-ARG. -/
def Obligations.MessageInstructions : Prop :=
  (∀ (d a b : Reg) (n : BitVec 2) s t w s1, Issues s t → Checked [.src a, .grp b (n.toNat + 1), .dst d] s → Reads a s w s1 →
    (fld w 63 32 ≠ 0 → TrapsExactly (.send d a b n) s 0x1F w) ∧
    (fld w 63 32 = 0 → release .pk s1 = .ok ((), s1) →
      let c := coreOf s1.cur
      (16 ≤ (Machine.core s1 c).sendQ.length → Answers (.send d a b n) s s1 d (status 1 0)) ∧
      ((Machine.core s1 c).sendQ.length < 16 →
        let m : Message :=
          { name := fld w 31 0, at_ := fld w 31 0, words := (List.range (n.toNat + 1)).map (argOf s1 b), swid := (self s1).swid,
            core := c, cid := cidOf s1 c, hop := 0 }
        Answers (.send d a b n) s (post (modCore s1 c fun x => { x with sendQ := x.sendQ ++ [m] }) (.messageDelivery m)) d
          (status 0 0)))) ∧
  (∀ (d a : Reg) s t w s1, Issues s t → Checked [.src a, .dst d] s → Reads a s w s1 → fld w 63 32 = 0 →
    let c := coreOf s1.cur
    (∀ r, recvNow s1 c (cidOf s1 c) (fld w 31 0) = some r → Answers (.recv d a) s s1 d r) ∧
    (recvNow s1 c (cidOf s1 c) (fld w 31 0) = none → exec (.recv d a) s = .next (finish (waitIn s1 s1.cur (.recv d (fld w 31 0))) .stay)) ∧
    (∀ r, recvNow s1 c (cidOf s1 c) (fld w 31 0) = some r → fld r 63 56 ≠ 0 → Answers (.rack d a) s s1 d r) ∧
    (recvNow s1 c (cidOf s1 c) (fld w 31 0) = none → Answers (.rack d a) s s1 d (status 3 0)) ∧
    (∀ r n e o, recvNow s1 c (cidOf s1 c) (fld w 31 0) = some r → fld r 63 56 = 0 → leadsTo s1 (fld w 31 0) n e → e.local_ = some o →
      Answers (.rack d a) s (ackHead s1 n e o) d (status 0 0) ∧
        .headCopy n ((e.head + 1) % 2 ^ 32) ∈ (ackHead s1 n e o).due)) ∧
  (∀ (d a b : Reg) s t w n s1 s2, Issues s t → Checked [.src a, .src b, .dst d] s → Reads a s w s1 → Reads b s1 n s2 →
    fld w 63 32 = 0 →
    let c := coreOf s2.cur
    (∀ r, recvNow s2 c (cidOf s2 c) (fld w 31 0) = some r → Answers (.recvt d a b) s s2 d r) ∧
    (recvNow s2 c (cidOf s2 c) (fld w 31 0) = none → n = 0 → Answers (.recvt d a b) s s2 d (status 2 0)) ∧
    (recvNow s2 c (cidOf s2 c) (fld w 31 0) = none → n ≠ 0 →
      exec (.recvt d a b) s = .next (finish (waitIn (postTimer s2 (.recvtLimit s2.cur)) s2.cur (.recv d (fld w 31 0))) .stay)))

/-- R300 to R302, R308 to R310: EPNEW makes the lowest free entry of the die with zeroed header; EPFREE frees the entry that a
name holds, whose tag then moves on; EPMOVE rebinds a name, on its own die in place, on another through a stub; 5 where a name
names nothing, 4 with no entry free. -/
def Obligations.EndpointInstructions : Prop :=
  (∀ (d a : Reg) s t w s1 blk s2, Issues s t → Checked [.src a, .dst d] s → Reads a s w s1 → epBlock w false s1 = .ok (blk, s2) →
    let dd := dieOf (coreOf s2.cur)
    (freeEntry s2 dd = none → Answers (.epnew d a) s s2 d (status 4 0)) ∧
    (∀ i, freeEntry s2 dd = some i →
      let tag := tagNow s2 dd i
      let e := newEntry s2 tag blk
      let name := dd * 2 ^ 30 + tag * 2 ^ 16 + i
      Answers (.epnew d a) s (setEp (clearHeader s2 e) name e) d (status 0 name) ∧ e.cid = cidOf s2 (coreOf s2.cur) ∧
        e.headCopy = 0 ∧ e.tail = 0 ∧ e.ovf = [] ∧ (blk.bind_ = true → e.st = .placed ∧ e.slot = some s2.cur) ∧
        (blk.bind_ = false → e.st = .unplaced ∧ e.owner = blk.own))) ∧
  (∀ (d a : Reg) s t w s1, Issues s t → Checked [.src a, .dst d] s → Reads a s w s1 → fld w 63 32 = 0 →
    (epFind s1 (cidOf s1 (coreOf s1.cur)) (fld w 31 0) = none → Answers (.epfree d a) s s1 d (status 5 0)) ∧
    (∀ e, epFind s1 (cidOf s1 (coreOf s1.cur)) (fld w 31 0) = some e →
      Answers (.epfree d a) s (wakeRecv (freeEp s1 (fld w 31 0) e)) d (status 0 0) ∧
      ∀ cid, epFind (freeEp s1 (fld w 31 0) e) cid (fld w 31 0) = none)) ∧
  (∀ (d a b : Reg) s t w v s1 s2 blk s3, Issues s t → Checked [.src a, .src b, .dst d] s → Reads a s w s1 → Reads b s1 v s2 →
    fld w 63 32 = 0 → epBlock v true s2 = .ok (blk, s3) →
    let dd := dieOf (coreOf s3.cur)
    let cid := cidOf s3 (coreOf s3.cur)
    (leadsNowhere s3 (fld w 31 0) → Answers (.epmove d a b) s s3 d (status 5 0)) ∧
    (∀ n e, leadsTo s3 (fld w 31 0) n e →
      let copied := fun (x : State) (m : Nat) => wakeRecv (refill (refill x m cid true (ringMessages s3 n e)) m cid false e.ovf)
      (epDie n = dd →
        let e' := newEntry s3 e.tag blk
        Answers (.epmove d a b) s (copied (setEp (clearHeader s3 e') n e') n) d (status 0 n)) ∧
      (epDie n ≠ dd → freeEntry s3 dd = none → Answers (.epmove d a b) s s3 d (status 4 0)) ∧
      (∀ i, epDie n ≠ dd → freeEntry s3 dd = some i →
        let tag := tagNow s3 dd i
        let n' := dd * 2 ^ 30 + tag * 2 ^ 16 + i
        let e' := newEntry s3 tag blk
        Answers (.epmove d a b) s (copied (setEp (setEp (clearHeader s3 e') n' e') n
          { e with st := .moved, stub := n', slot := none, ovf := [] }) n') d (status 0 n'))))

namespace Sys2Proof.Claims

/-- No earlier request of the issuing core is on its way to a slice of a property: a table operation that is performed there
may act as it issues (R48; log entry 42). -/
def MayAct (s : State) (p : Nat → Bool) : Prop := requestsOut s (coreOf s.cur) p = false

/-- The table die of the issuing thread's core, its table, and the entry of a key there (R313, R314). -/
def keyed (s : State) (off : Word) (key : List Word) : Option Entry :=
  entryOfKey (tbl s (dieOf (coreOf s.cur))) (cidOf s (coreOf s.cur)) (((segOf (self s) 7).base + off.toNat) % 2 ^ 52) key

/-- An instruction writes the first two result registers, from a state, and goes on. -/
def AnswersPair (i : Instr) (s s1 : State) (d : Reg) (st : Nat) (v : Word) : Prop :=
  exec i s = .next (finish (modSelf s1 fun t => wrReg (wrReg t d.toNat (BitVec.ofNat 64 st)) (d.toNat + 1) v) .seq)

/-- R321: what a call or look-up that finds an entry answers: 5 for a failed one; else a cursor, 2 on a complete entry and 3
on an open one, or 6 where none can be had. -/
def Found (i : Instr) (s s1 : State) (d : Reg) (e : Entry) : Prop :=
  let dd := dieOf (coreOf s1.cur)
  let s2 := touchEntry s1 dd e.dfn
  (e.st = .failed → AnswersPair i s s2 d 5 0) ∧
  (e.st ≠ .failed → noCursor s2 = true → AnswersPair i s s2 d 6 0) ∧
  (∀ tb w, e.st ≠ .failed → noCursor s2 = false → newCursor (tbl s2 dd) dd e.dfn 0 = some (tb, w) →
    AnswersPair i s (modSelf (modTbl s2 dd fun _ => tb) fun t => { t with cursors := t.cursors ++ [w] }) d
      (if e.st = .complete then 2 else 3) w)

/-- R323: the innermost frame of a thread. -/
def Innermost (t : Thread) (f : Frame) : Prop := ∃ rest, t.frames = f :: rest

end Sys2Proof.Claims

/-- R314, R317 to R327 (the order of a frame's end, and that a table operation acts in the step in which it issues, are the
model's reading, log entry 42; the reserved cursor of a miss joins the thread's list, TRET sets it to position 0, and TERR frees it, only if it is still
there, log entry 42): TCALL and TLOOK on a key that is in the table; a miss of TLOOK; a miss of TCALL, which goes to the
callee with a new frame, a new OPEN entry in its home's set and a reserved cursor; TANS, TRET, TERR, TNEXT and TREL on the
thread's own frame and cursors. Without a frame TANS, TRET and TERR trap TABLE-STATE. -/
def Obligations.TableInstructions : Prop :=
  (∀ (d a b : Reg) (n : BitVec 2) s t off s1, Issues s t → Checked [.grp a (n.toNat + 1), .src b, .grp d 2] s →
    let key := (List.range (n.toNat + 1)).map (argOf s a)
    Reads b s off s1 → off.toNat % 4 = 0 →
    MayAct s1 (fun h => h == dieOf (coreOf s1.cur) * 64 +
      fld (placeHash (cidOf s1 (coreOf s1.cur)) (((segOf (self s1) 7).base + off.toNat) % 2 ^ 52) key) 63 58) →
    (∀ e, keyed s1 off key = some e → Found (.tcall d a b n) s s1 d e ∧ Found (.tlook d a b n) s s1 d e) ∧
    (keyed s1 off key = none → AnswersPair (.tlook d a b n) s s1 d 0 0) ∧
    (keyed s1 off key = none → noCursor s1 = false → (self s1).frames.length < 1024 → thr s1 s1.cur ≠ none →
      let dd := dieOf (coreOf s1.cur)
      let cid := cidOf s1 (coreOf s1.cur)
      let callee := ((segOf (self s1) 7).base + off.toNat) % 2 ^ 52
      let h := placeHash cid callee key
      ∀ g tb, lowestFree (tbl s1 dd).groups 1024 = some g → roomIn (tbl s1 dd) (dd * 64 + fld h 63 58) (fld h 57 50) = some tb →
      ∃ s2 e f, exec (.tcall d a b n) s = .next (finish s2 (.goto off)) ∧ (self s2).frames = f :: (self s1).frames ∧
        e ∈ (tbl s2 dd).entries ∧ e.st = .open_ ∧ e.cid = cid ∧ e.callee = callee ∧ e.key = key ∧ e.answers = [] ∧ e.grp = g ∧
        e.dfn = tb.dfn ∧ e.cur = 1 ∧ find (tbl s2 dd).groups g = some { p := 1, a := 0 } ∧
        f.die = dd ∧ f.entry = e.dfn ∧ f.ret = (self s1).pc + 4 ∧ f.d = d.toNat ∧ f.inherited = false ∧ f.dead = 0 ∧
        (self s2).cursors = (self s1).cursors ++ [f.cursor] ∧ (self s2).regs = (self s1).regs ∧ s2.mem = s1.mem)) ∧
  (∀ (d a : Reg) (n : BitVec 2) s t, Issues s t → Checked [.grp a (n.toNat + 1), .dst d] s →
    (t.frames = [] → TrapsExactly (.tans d a n) s 0x21 0) ∧
    (∀ f, Innermost t f → release .di s = .ok ((), s) → MayAct s (homeOfDfn s f.die f.entry) →
      let p := answer s f ((List.range (n.toNat + 1)).map (argOf s a))
      Answers (.tans d a n) s p.1 d (BitVec.ofNat 64 p.2) ∧
      (∀ e, f.dead = 0 → entryOf (tbl s f.die) f.entry = some e →
        e.answers.contains ((List.range (n.toNat + 1)).map (argOf s a)) = true → p = (s, 1)))) ∧
  (∀ s t, Issues s t → t.frames = [] → TrapsExactly .tret s 0x21 0 ∧ TrapsExactly .terr s 0x21 0) ∧
  (∀ s t f rest g, Issues s t → t.frames = f :: rest → release .di s = .ok ((), s) → f.dead = 0 → f.inherited = false →
    busyX t f.d = false → busyX t (f.d + 1) = false → groupOfDfn (tbl s f.die) f.entry = some g →
    let s1 := modSelf s fun t => { t with frames := rest }
    let s2 := checkGroup (modGroup s1 f.die g fun x => { x with p := x.p - 1 }) f.die g
    let s3 := if (self s2).cursors.contains f.cursor then modTbl s2 f.die fun t => rewind t (cursorRec f.cursor) else s2
    exec .tret s = .next (finish (modSelf s3 fun t => wrReg (wrReg t f.d 1) (f.d + 1) f.cursor) (.goto f.ret))) ∧
  (∀ s t f rest g, Issues s t → t.frames = f :: rest → release .di s = .ok ((), s) → f.dead = 0 → f.inherited = false →
    busyX t f.d = false → busyX t (f.d + 1) = false → groupOfDfn (tbl s f.die) f.entry = some g →
    let s1 := modSelf (failGroup s f.die g 2) fun t => { t with frames := t.frames.drop 1 }
    let s2 := if t.cursors.contains f.cursor then modTbl s1 f.die fun t => dropCursor t (cursorRec f.cursor) else s1
    exec .terr s = .next (finish (modSelf s2 fun t =>
      wrReg (wrReg { t with cursors := t.cursors.erase f.cursor } f.d 5) (f.d + 1) 0) (.goto f.ret))) ∧
  (∀ (d a : Reg) s t c s1, Issues s t → Checked [.src a, .grp d 5] s → Reads a s c s1 →
    (c ∉ (self s1).cursors → TrapsExactly (.tnext d a) s 0x20 c) ∧
    (c ∈ (self s1).cursors → (self s1).frames = [] ∨ (self s1).results = [] ∧ release .di s1 = .ok ((), s1) →
      MayAct s1 (homeOfCursor s1 c) →
      (∀ ws moved, tnextDecide (tbl s1 (fld c 63 62)) (fld c 13 0) = some (ws, moved) →
        let s2 := if moved then modTbl s1 (fld c 63 62) fun t => advance t (fld c 13 0) else s1
        exec (.tnext d a) s = .next (finish (modSelf s2 fun t => wrRegs t (tnextRegs d.toNat ws)) .seq)) ∧
      (tnextDecide (tbl s1 (fld c 63 62)) (fld c 13 0) = none → (self s1).frames = [] →
        exec (.tnext d a) s = .next (finish (waitIn (post s1 (.slotGrant (coreOf s1.cur))) s1.cur (.tnext d c a.toNat)) .stay)) ∧
      (∀ f rest, tnextDecide (tbl s1 (fld c 63 62)) (fld c 13 0) = none → (self s1).frames = f :: rest →
        let p := fork s1 d a c f
        exec (.tnext d a) s = .next (finish (modSelf p.1 fun t => wrRegs t (tnextRegs d.toNat p.2)) .seq)))) ∧
  (∀ (a : Reg) s t c s1, Issues s t → Checked [.src a] s → Reads a s c s1 →
    (c ∉ (self s1).cursors → TrapsExactly (.trel a) s 0x20 c) ∧
    (c ∈ (self s1).cursors → MayAct s1 (homeOfCursor s1 c) → exec (.trel a) s = .next (finish (modSelf (modTbl s1 (fld c 63 62) fun t => dropCursor t (fld c 13 0))
      fun t => { t with cursors := t.cursors.erase c }) .seq)))

/-- R325: what TNEXT answers at a cursor: the answer at its position and how many words it has, END on a complete entry, ERROR
with its cause on a failed cursor or entry; nothing yet on an open one. -/
def Obligations.CursorAnswers : Prop :=
  ∀ (t : Table) r c, find t.cursors r = some c →
    (c.failed = true → tnextDecide t r = some ([BitVec.ofNat 64 (c.cause * 2 ^ 16 + 3), 0, 0, 0, 0], false)) ∧
    (∀ e, c.failed = false → entryOf t c.entry = some e →
      (e.st = .failed → tnextDecide t r = some ([BitVec.ofNat 64 (e.cause * 2 ^ 16 + 3), 0, 0, 0, 0], false)) ∧
      (∀ w ws, e.st ≠ .failed → e.answers[c.pos]? = some (w :: ws) → ws.length ≤ 3 →
        tnextDecide t r = some (BitVec.ofNat 64 (ws.length * 2 ^ 8) :: w :: ws ++ List.replicate (3 - ws.length) 0, true)) ∧
      (e.answers.length ≤ c.pos → e.st = .complete → tnextDecide t r = some ([1, 0, 0, 0, 0], false)) ∧
      (e.answers.length ≤ c.pos → e.st = .open_ → tnextDecide t r = none))

namespace Sys2Proof.Claims

/-- How many entries of a table belong to a partition and have a property. -/
def countEntries (t : Table) (cid : Nat) (p : Entry → Bool) : Nat := t.entries.countP fun e => e.cid == cid && p e

/-- The words of STAT: of a partition, its entries, its OPEN ones, the groups of those and the snapshots that wait on its entries,
each in its field; and its evictions and failed groups since placement (R328). -/
def CountsRight (t : Table) (cid : Nat) : Prop :=
  let grps := t.groups.countP fun g => t.entries.any fun e => e.cid == cid && e.grp == g.1 && e.st == .open_
  let snps := t.snaps.countP fun x => t.entries.any fun e => e.cid == cid && e.dfn == x.2.entry
  let evicted := (find t.evict cid).getD 0
  let failed := (find t.fails cid).getD 0
  (countEntries t cid (fun _ => true) ≤ 131072 → grps ≤ 1024 → snps ≤ 8192 →
    let w := tableStat t cid 0
    fld w 17 0 = countEntries t cid (fun _ => true) ∧ fld w 35 18 = countEntries t cid (fun e => e.st == .open_) ∧ fld w 36 36 = 0 ∧
    fld w 47 37 = grps ∧ fld w 61 48 = snps ∧ fld w 63 62 = 0) ∧
  (evicted < 2 ^ 32 → failed < 2 ^ 32 → fld (tableStat t cid 1) 63 32 = evicted ∧ fld (tableStat t cid 1) 31 0 = failed)

/-- What FLUSH-CID leaves of a partition on the four dies: no entry but OPEN ones that now fail with cause FLUSH, and no cursor
record on its entries in use and not marked failed; how many it freed; the entries of others as they stood, but for how many
cursors they have (R33, R328). -/
def FlushedRight (s : State) (cid : Nat) : Prop :=
  let s' := (flushCid s cid).1
  (flushCid s cid).2 = ((List.range 4).map fun d => countEntries (tbl s d) cid fun e => e.st != .open_).sum ∧ s'.mem = s.mem ∧
  ∀ d, d < 4 →
    (∀ e ∈ (tbl s' d).entries, e.cid = cid → e.st = .failed ∧ e.cause = 5) ∧
    (∀ r x, find (tbl s d).cursors r = some x → x.used = true → (∃ e ∈ (tbl s d).entries, e.cid = cid ∧ e.dfn = x.entry) →
      ∃ y, find (tbl s' d).cursors r = some y ∧ (y.used = false ∨ y.failed = true)) ∧
    ∀ e ∈ (tbl s d).entries, e.cid ≠ cid → e.st ≠ .failed →
      (∀ e' ∈ (tbl s d).entries, e'.cid = cid → e'.dfn ≠ e.dfn ∧ (e'.st = .open_ → e'.grp ≠ e.grp)) →
      ∃ n, { e with cur := n } ∈ (tbl s' d).entries

end Sys2Proof.Claims

/-- R33, R328: TCTL: the partition's counts on the die; a callee's complete entries without cursors freed, with how many were
and how many were not; every entry of a partition on all four dies freed, or failed where it is OPEN, which needs S. An operation
or selector that is not listed traps TABLE-ARG. That FAILED entries count among the freed is the model's reading (log entry 22), and
that TCTL acts as it issues log entry 42. -/
def Obligations.TableControl : Prop :=
  (∀ t cid, CountsRight t cid) ∧ (∀ s cid, FlushedRight s cid) ∧
  (∀ (t : Table) cid callee,
    let mine := fun (e : Entry) => e.callee == callee
    let gone := fun (e : Entry) => e.callee == callee && e.st == .complete && e.cur == 0
    countEntries t cid gone < 2 ^ 32 →
    fld (flushCallee t cid callee).2 31 0 = countEntries t cid gone ∧
    fld (flushCallee t cid callee).2 47 32 = Nat.min 65535 (countEntries t cid mine - countEntries t cid gone) ∧
    fld (flushCallee t cid callee).2 63 48 = 0) ∧
  ∀ (d a b : Reg) s t w v s1 s2, Issues s t → Checked [.src a, .src b, .dst d] s → Reads a s w s1 → Reads b s1 v s2 →
    let dd := dieOf (coreOf s2.cur)
    let cid := cidOf s2 (coreOf s2.cur)
    let callee := ((segOf (self s2) 7).base + v.toNat) % 2 ^ 52
    let here := fun (h : Nat) => dieOfCluster h == dd
    (w = 0 → v = 0 ∨ v = 1 → MayAct s2 here → Answers (.tctlStat d a b) s s2 d (tableStat (tbl s2 dd) cid v.toNat)) ∧
    (w = 0 → 2 ≤ v.toNat → TrapsExactly (.tctlStat d a b) s 0x20 v) ∧
    (3 ≤ w.toNat → TrapsExactly (.tctlStat d a b) s 0x20 w) ∧
    (w = 1 → MayAct s2 here → Answers (.tctlFlushCallee d a b) s (modTbl s2 dd fun _ => (flushCallee (tbl s2 dd) cid callee).1) d
      (flushCallee (tbl s2 dd) cid callee).2 ∧
      ∀ e ∈ (tbl s2 dd).entries, e ∈ (flushCallee (tbl s2 dd) cid callee).1.entries ↔
        ¬ (e.cid = cid ∧ e.callee = callee ∧ e.st = .complete ∧ e.cur = 0)) ∧
    (w = 2 → (self s2).level ≠ .u → fld v 63 12 = 0 → MayAct s2 (fun _ => true) →
      Answers (.tctlFlushCid d a b) s (flushCid s2 (fld v 11 0)).1 d (BitVec.ofNat 64 ((flushCid s2 (fld v 11 0)).2 % 2 ^ 32))) ∧
    (w = 2 → (self s2).level = .u → TrapsExactly (.tctlFlushCid d a b) s 0x03 (instrWord (.tctlFlushCid d a b)))

/-- R15, R172, R258 to R266 (that MGANG joins in the step in which it issues is log entry 28, the order in which failing
operands trap log entry 23): JSUB enters a job under the next identifier that is not 0 and not in use, answers 0 with 32 in the
queue (and where every identifier is in use: the model's choice, log entry 5), and traps COMMAND with the word that is wrong;
JPOLL and JCANCEL answer the status word, JCANCEL stops the job; JWAIT takes the report that stands, waits for one that
comes, or answers UNKNOWN; MGANG joins the oldest job with its tag and waits; RDONE ends a row handler, and traps JOB-ARG in
any other thread. -/
def Obligations.JobInstructions : Prop :=
  (∀ (d a : Reg) s t, Issues s t → Checked [.grp a 4, .dst d] s →
    let c0 := argOf s a 0
    let c1 := argOf s a 1
    let c2 := argOf s a 2
    let c3 := argOf s a 3
    let c := coreOf s.cur
    let k := clusterOf c
    let os := usedSpecs s.pkg.dev c0 (opSpecs c0 c1 c2 c3)
    (∀ i, commandBad s.pkg.dev c0 c1 c2 c3 = some i → TrapsExactly (.jsub d a) s 0x1C (word i)) ∧
    (commandBad s.pkg.dev c0 c1 c2 c3 = none → release .cl s = .ok ((), s) →
      (∀ x, (os.filterMap id).findSome? (operandTrap t) = some x → TrapsExactly (.jsub d a) s x.1 x.2) ∧
      ((os.filterMap id).findSome? (operandTrap t) = none →
        (32 ≤ ((cluster s k).jobs.filter fun j => j.st != .reported).length → Answers (.jsub d a) s s d 0) ∧
        (((cluster s k).jobs.filter fun j => j.st != .reported).length < 32 →
          (∀ id, nextJobId (cluster s k).jobs (cluster s k).jobCtr = some id →
            let j := newJob id (c % 8) s.cur t.flotilla c0 c1 c2 c3 (os.map (resolved t))
            let s1 := modCluster s k fun x => { x with jobs := x.jobs ++ [j], jobCtr := id }
            Answers (.jsub d a) s (joinCallers (wakeJob (postTimer s1 (.jobAged k id)) k id) k j) d (BitVec.ofNat 64 id)) ∧
          (nextJobId (cluster s k).jobs (cluster s k).jobCtr = none → Answers (.jsub d a) s s d 0))))) ∧
  (∀ jobs ctr id, nextJobId jobs ctr = some id → 0 < id ∧ id < 2 ^ 16 ∧ ∀ j ∈ jobs, j.id ≠ id) ∧
  (∀ (d a : Reg) s t w s1, Issues s t → Checked [.src a, .dst d] s → Reads a s w s1 →
    let c := coreOf s1.cur
    let k := clusterOf c
    let id := fld w 15 0
    let reports := (Machine.core s1 c).inbox ++ (Machine.core s1 c).inboxOver
    (fld w 63 16 = 0 → Answers (.jpoll d a) s s1 d (jobStatus s1 c id)) ∧
    (fld w 63 16 ≠ 0 → TrapsExactly (.jpoll d a) s 0x1E w ∧ TrapsExactly (.jwait d a) s 0x1E w ∧ TrapsExactly (.mgang d a) s 0x1E w) ∧
    (fld w 63 16 = 0 → knownJob s1 c id = none → Answers (.jwait d a) s s1 d (BitVec.ofNat 64 (5 * 2 ^ 61 + id))) ∧
    (∀ j, fld w 63 16 = 0 → knownJob s1 c id = some j → (j.st ≠ .reported ∨ reports.any (isReport id) = false) →
      exec (.jwait d a) s = .next (finish (waitIn s1 s1.cur (.jwait d id)) .stay)) ∧
    (∀ j, fld w 63 16 = 0 → knownJob s1 c id = some j → j.st = .reported → reports.any (isReport id) = true →
      Answers (.jwait d a) s (wakeUnknown (takeReport (dropReport s1 c id) c id)) d (jobStatus s1 c id)) ∧
    (fld w 63 17 = 0 → knownJob s1 c id = none → Answers (.jcancel d a) s s1 d (jobStatus s1 c id)) ∧
    (∀ j, fld w 63 17 = 0 → knownJob s1 c id = some j →
      Answers (.jcancel d a) s (cancelJob s1 k id (bitOf w 16)) d (jobStatus s1 c id)) ∧
    (fld w 63 16 = 0 →
      let fits := fun (j : Job) => isGang j && beforeStart j && !j.ended && jobTag j == id && (jobMembers j).contains (c % 8) &&
        !j.joined.contains (c % 8)
      ((cluster s1 k).jobs.find? fits = none → exec (.mgang d a) s = .next (finish (waitIn s1 s1.cur (.mgang d id none)) .stay)) ∧
      (∀ j, (cluster s1 k).jobs.find? fits = some j →
        exec (.mgang d a) s = .next (finish (joinJob (waitIn s1 s1.cur (.mgang d id (some j.id))) k j.id (c % 8)) .stay)))) ∧
  (∀ s t, Issues s t → (t.handler = none → TrapsExactly .rdone s 0x1E 0) ∧
    (t.handler ≠ none → release .cl s = .ok ((), s) → exec .rdone s = .next (endThread s s.cur false)))

/-! ### Events: what arrives at cores, ports, homes and memories (spec/03_hierarchy.md, spec/07_order_wide.md,
spec/26_translation.md) -/

namespace Sys2Proof.Claims

/-- An event answers one state. -/
def Gives (i : Instr) (s s' : State) : Prop := exec i s = .next s'

end Sys2Proof.Claims

/-- R45, R51, R87, R99, R109, R115, R182, R211, R353, R356, R372, R375: what arrives at a core or its port. A pending trap is
taken at the pc; a delayed result, a load's data or its refusal reaches the thread; the buffer's head enters the journal and
is sent; an acknowledgement frees its entry and a refusal keeps it with STORE-REFUSED pending; a probe leaves no copy; a fill
serves its load, and is installed unless it comes poisoned (R391); a walk installs, parks, or starts again; a waiting fault record is written; an invalidation is answered.
That a walk or a record whose lines are not free asks the host and comes again is the model's choice (log entry 27), as is
that a record is told once of its ring's fault (log entry 33). -/
def Obligations.ArrivalsAtCores : Prop :=
  (∀ slot s t a rest, thr s slot = some t → t.pend = a :: rest → t.inh = false → t.saving = none → t.status = .ready →
    t.stalled = [] → ∃ s' t', Gives (.asyncTrapDelivery slot) s s' ∧ thr s' slot = some t' ∧
      Entered s slot { t with pend := rest } (BitVec.ofNat 64 (a.cause + 256)) a.tval a.tadr t.pc t' ∧ s'.mem = s.mem ∧
      ((∀ x ∈ (cluster s (clusterOf (coreOf slot))).touches, x.who ≠ .slot slot) → ∀ k, k ≠ slot → thr s' k = thr s k)) ∧
  (∀ slot tx s t (r : Result), thr s slot = some t → (t.results.find? fun q => q.tx == tx) = some r →
    let u := { t with results := t.results.filter fun q => q.tx != r.tx }
    (∀ n v, r.reg = some (n, v) → r.vec = none → Gives (.operationResult slot tx) s (setThr s slot (wrReg u n v))) ∧
    (∀ v ls, r.reg = none → r.vec = some (v, ls) →
      Gives (.operationResult slot tx) s (writeWords (setThr s slot u) (laneWrites (coreOf slot) u v ls)))) ∧
  (∀ src slot tx a s t o p k, thr s slot = some t → t.outs = [o] → o.pieces = [p] → p.acc.tx = tx → p.acc.op = .read k →
    p.early = false →
    let s1 := dropDomain s fun r => r.tx == tx
    (∀ r n sgn bs, o.dest = .x r n sgn →
      Gives (.loadDataArrives ⟨src, slot⟩ tx a ⟨.data bs, false⟩) s (setThr s1 slot (wrReg { t with outs := [] } r (extend sgn n bs)))) ∧
    (∀ r n sgn rk who, o.dest = .x r n sgn →
      Gives (.loadDataArrives ⟨src, slot⟩ tx a ⟨.refused rk who, false⟩) s
        (pendTrap (setThr s1 slot { t with outs := [] }) slot 0x16 (BitVec.ofNat 64 (rk * 256 + who)) o.pc o.dest))) ∧
  (∀ c s, (Machine.core s c).sb = [] → Gives (.storeDrain c) s s) ∧
  (∀ c s e rest a n d i, (Machine.core s c).sb = e :: rest → e.words = [(a, n, d)] → e.flush = false → e.kind = .glob →
    mayDrain s c e = true → freeEntries s c 1 = some [i] →
    let j : JEntry :=
      { ref := false, code := 0, size := sizeCode n, kind := .glob, tgt := e.tgt, seq := (Machine.core s c).seq + 1, addr := a,
        data := d, swid := e.swid, slot := e.slot, gone := e.gone,
        dieLocal := if headLocal s c e then none else some false, reported := false }
    let r : Access :=
      { tx := s.nextTx, agent := .journal c [i], core := c, cid := cidOf s c, kind := .glob, tgt := e.tgt, addr := a,
        op := .write (storeCells [(a, n, d)]), scope := .th, xlated := false, phys := 0, home := none, cache := 0,
        common := false, tracked := false, handle := none, m := e.m }
    let s1 := modCore s c fun y => { y with sb := rest, journal := put (Machine.core s c).journal i j, seq := (Machine.core s c).seq + 1 }
    Gives (.storeDrain c) s (post (feedHeld (headSeen (atPort (tick s1) r) c) c) (.storeDrain c))) ∧
  (∀ src c i s j, find (Machine.core s c).journal i = some j →
    let s1 := dropDomain s fun r => r.agent == .journal c [i]
    Gives (.storeAck ⟨src, c⟩ [i] 0 none) s (post (modCore s1 c fun x => { x with journal := del x.journal i }) (.storeDrain c)) ∧
    (∀ code t, code ≠ 0 → code ≠ 7 → thr s j.slot = some t → j.gone = false → t.pend = [] →
      let kept := modCore s1 c fun x => { x with journal := put x.journal i { j with ref := true, code := code, reported := true } }
      let u := { t with pend := [{ cause := 0x22, tval := BitVec.ofNat 64 i, tadr := 0, store := false }] }
      Gives (.storeAck ⟨src, c⟩ [i] code none) s
        (post (post (setThr kept j.slot u) (.asyncTrapDelivery j.slot)) (.storeDrain c)))) ∧
  (∀ src slot tx s, ∃ s', Gives (.hostDone ⟨src, .load slot, tx⟩) s s' ∧
    (∀ k t, thr s k = some t → thr s' k = some { t with hostPending := t.hostPending.erase tx }) ∧
    s'.saved = (s.saved.map fun x => { x with thread := { x.thread with hostPending := x.thread.hostPending.erase tx } })) ∧
  (∀ src tx k id u s j, jobAt s k id = some j →
    Gives (.hostDone ⟨src, .engine k id u, tx⟩) s (finishJob (modJob s k id fun j => { j with hp := j.hp - 1 }) k id)) ∧
  (∀ src c cid line data s m j, ((Machine.core s c).mshr.find? fun m => m.cid == cid && m.line == line) = some m → m.joined = [j] →
    m.probed = false →
    let s1 := modCore s c fun x => { x with mshr := x.mshr.erase m }
    let bs := (data.drop j.off).take j.size
    Gives (.l1FillLands ⟨src, c⟩ cid line true ⟨data, []⟩) s
      (retryQueued (post (l1Install s1 c { line := line, cid := cid, data := data, tow := none })
        (.loadDataArrives ⟨nodeCore c, j.slot⟩ j.tx j.addr ⟨.data bs, false⟩)) (clusterOf c)) ∧
    ∀ bad, bad ≠ [] → (∀ i < j.size, (j.off + i) / 4 ∈ bad) → 0 < j.size →
      Gives (.l1FillLands ⟨src, c⟩ cid line true ⟨data, bad⟩) s
        (retryQueued (post s1 (.loadDataArrives ⟨nodeCore c, j.slot⟩ j.tx j.addr
          ⟨.poison bs (List.range j.size), false⟩)) (clusterOf c))) ∧
  (∀ c h cid line s, Gives (.invalidationProbe c h cid line) s (post (l1Probe s c cid line) (.probeAckAtHome ⟨nodeCore c, h⟩ cid line false))) ∧
  (∀ c cid line s, (∀ p ∈ s.threads, coreOf p.1 = c → p.2.outs = []) →
    l1Find (Machine.core (l1Probe s c cid line) c) cid line = none ∧ (l1Probe s c cid line).mem = s.mem) ∧
  (∀ k cid page s w, ((cluster s k).walks.find? fun w => w.cid == cid && w.page == page) = some w →
    let s1 := modCluster s k fun x => { x with walks := x.walks.erase w }
    let vs := walkVisits s k cid page
    (notFree s vs = true → Gives (.walkComplete k cid page) s (post (recallAll s vs) (.walkComplete k cid page))) ∧
    (w.stale = true → Gives (.walkComplete k cid page) s
      (post (modCluster s k fun x => { x with walks := x.walks.map fun y => if y == w then { y with stale := false } else y })
        (.walkComplete k cid page))) ∧
    (∀ r rs, notFree s vs = false → w.stale = false → w.waiting = r :: rs → pageOf r = page →
      (∀ e got, walkVa s1 (dieOfCluster k) cid r.addr = (got, .ok e) → Gives (.walkComplete k cid page) s
        (retryQueued ((r :: rs).foldl atPort (installWalk s1 k got e)) k)) ∧
      (∀ f got, walkVa s1 (dieOfCluster k) cid r.addr = (got, .error f) → Gives (.walkComplete k cid page) s
        (retryQueued (keepParked ((r :: rs).foldl (faultAccess f page) (noteWalk s1 (dieOfCluster k) got))) k)))) ∧
  (∀ cid s, notFree s (faultVisits s cid) = true →
    Gives (.faultQueueRetry cid) s (post (recallAll s (faultVisits s cid)) (.faultQueueRetry cid))) ∧
  (∀ cid s p r s2, notFree s (faultVisits s cid) = false →
    let s1 := (faultVisits s cid).foldl noteVisit s
    part s1 cid = some p → p.faults = [r] →
    (r.hyper = true → appendHyper s1 cid p r = some s2 → Gives (.faultQueueRetry cid) s (dropFault s2 cid r)) ∧
    (r.hyper = false → appendFault s1 cid p.fq r = some s2 → Gives (.faultQueueRetry cid) s (dropFault s2 cid r)) ∧
    (r.hyper = false → appendFault s1 cid p.fq r = none → r.told = true → Gives (.faultQueueRetry cid) s s1)) ∧
  (∀ k slot (req arg : Word) s, req.getLsbD 57 = false →
    let s1 := acceptPinv s k req arg
    (pinvDone s1 k (fld req 11 0) = false →
      Gives (.pinvAccept k slot req arg) s (post s1 (.pinvAccept k slot (req ||| 0x0200000000000000) arg))) ∧
    (∀ t d n, pinvDone s1 k (fld req 11 0) = true → thr s1 slot = some t → waitOf t = some (.pinv d n) →
      Gives (.pinvAccept k slot req arg) s
        (setThr s1 slot (if n ≤ 1 then completed t [(d.toNat, 0)] else setWait t (.pinv d (n - 1))))))

namespace Sys2Proof.Claims

/-- A line at its home that serves accesses now: present, idle, with nothing waiting, no write under way and no tow out, and
not there for an uncached page only; and no access of it waits for room at the slice. -/
def Idle (s : State) (h cid line : Nat) (x : HomeLine) (d : List Byte) : Prop :=
  lineAt s h cid line = some x ∧ lineBusy x = false ∧ x.waiting = [] ∧ x.bi = [] ∧ x.current = none ∧ x.evicting = false ∧
    x.towing = 0 ∧ x.transient = false ∧ x.data = some d ∧ roomFirst s h cid line = false

/-- No one else has a copy of a line: no core, no basin. -/
def Alone (s : State) (h cid line : Nat) (x : HomeLine) : Prop := x.mode = 0 ∧ holdersOf s h cid line = []

/-- How a controller's sketch and list stand after a page is counted (R53, R54). -/
def counted (s : State) (ctrl page cid : Nat) : HotCtrl :=
  let h := hotCtrl s ctrl
  { h with rows := countPage h.rows page, cands := candidates h.cands page (estimate (countPage h.rows page) page) cid }

end Sys2Proof.Claims

/-- R26, R35, R39, R45, R53 to R56, R110, R116, R388: requests at homes, memories, controllers and the explicit levels. A busy
line queues an access; an absent one is filled; a present one serves a cached load, and a store to a line that no one else
holds is performed at once and acknowledged; acknowledgements are counted down; the hotness unit counts and publishes; an
access of another cluster or device is performed, refused with its code, or turned away. The record's three writes, each an
event, and MG.HOTBASE 0 are the model's choice (log entry 32), as are what waits for a line that is not free (log entry 27) and
an access of another device that gets no answer (log entry 16). -/
def Obligations.RequestsAtHomes : Prop :=
  (∀ h (r : Access) s x, (∀ k q, r.op ≠ .host k q) → lineAt s h r.cid (r.phys / 128) = some x →
    (lineBusy x = true ∨ x.waiting ≠ []) →
    let s' := modLine s h r.cid (r.phys / 128) fun l => { l with waiting := l.waiting ++ [r] }
    Gives (.requestAtHome h r) s s' ∧ Gives (.writeBackMessage h r) s s') ∧
  (∀ h (r : Access) s s1 w n slot, r.agent = .load slot → r.op = .read n → lineAt s h r.cid (r.phys / 128) = none →
    (slice s h).noRoom = [] →
    (r.cache = 0 → wayFor s h (r.phys / 128) = (s1, some w) →
      let x := { newLine r.cid (r.phys / 128) w with filling := true, waiting := [r] }
      Gives (.requestAtHome h r) s
        (post (memRead (modSlice s1 h fun y => { y with lines := y.lines ++ [x] }) r.cid (r.phys / 128))
          (.memoryReplyAtHome h r.cid (r.phys / 128)))) ∧
    (r.cache = 2 → s.poison = [] → (channelOf (r.phys / 128)).isSome = true →
      Gives (.requestAtHome h r) s
        (countAt (post (readEarly s slot r.tx)
          (.loadDataArrives ⟨nodeSlice h, slot⟩ r.tx r.addr ⟨.data (msBytes s r.cid r.phys n), false⟩)) r.cid (r.phys / 128))) ∧
    (r.cache = 2 → s.poison = [] → channelOf (r.phys / 128) = none →
      Gives (.requestAtHome h r) s
        (countAt (post (readEarly s slot r.tx) (.expanderRead h r (msBytes s r.cid r.phys n) [])) r.cid (r.phys / 128)))) ∧
  (∀ h (r : Access) s x d n slot, r.agent = .load slot → r.op = .read n → r.cache = 0 → r.handle = none →
    Idle s h r.cid (r.phys / 128) x d → x.hh0 ≠ 2 → x.hh1 ≠ 2 →
    let line := r.phys / 128
    let s1 := meet (useWay s h x) (line * 128) 128
    (recordWaits s1 h x r.core = false → Gives (.requestAtHome h r) s
      (post (recordCore (consumerFilled s1 h r.core line) h r.cid line r.core)
        (.l1FillLands ⟨nodeSlice h, r.core⟩ r.cid line true ⟨d, badWords s1 line⟩))) ∧
    (recordWaits s1 h x r.core = true → Gives (.requestAtHome h r) s (waitRoom s1 h r))) ∧
  (∀ h (r : Access) s x d cells c es, r.agent = .journal c es → r.op = .write cells → r.cache = 0 → r.handle = none →
    es ≠ [] → Idle s h r.cid (r.phys / 128) x d → Alone s h r.cid (r.phys / 128) x → x.hh0 = 0 → x.hh1 = 0 → s.poison = [] →
    ∃ s' y, Gives (.requestAtHome h r) s s' ∧ lineAt s' h r.cid (r.phys / 128) = some y ∧ y.data = some (mergeCells d cells) ∧
      y.dirty = true ∧ y.current = none ∧ s'.due = s.due ++ [.storeAck ⟨nodeSlice h, c⟩ es 0 none] ∧ s'.mem = s.mem ∧
      s'.threads = s.threads) ∧
  (∀ h (r : Access) s x d cells c bn clus sl, r.agent = .writeBack c bn clus sl → r.op = .write cells → r.cache = 0 →
    r.handle = none → Idle s h r.cid (r.phys / 128) x d → Alone s h r.cid (r.phys / 128) x → x.hh0 = 0 → x.hh1 = 0 →
    s.poison = [] →
    ∃ s' y, Gives (.writeBackMessage h r) s s' ∧ lineAt s' h r.cid (r.phys / 128) = some y ∧
      y.data = some (mergeCells d cells) ∧ y.dirty = true ∧
      s'.due = s.due ++ [.writeBackAck ⟨nodeSlice h, c⟩ r.tx bn clus sl false ⟨false, false⟩ false] ∧ s'.mem = s.mem) ∧
  (∀ h cid line s x, lineAt s h cid line = some x → x.filling = true →
    let x' := { x with data := some (msPeek s cid line), filling := false, lost := [] }
    Gives (.memoryReplyAtHome h cid line) s (settleLine (useWay (modLine s h cid line fun _ => x') h x') h cid line)) ∧
  (∀ h cid line s x, lineAt s h cid line = some x → x.filling = false → x.memWait = true →
    Gives (.memoryReplyAtHome h cid line) s (settleLine (modLine s h cid line fun l => { l with memWait := false }) h cid line)) ∧
  (∀ src h cid line hit s x, lineAt s h cid line = some x →
    let s1 := modLine s h cid line fun l => { l with acks := l.acks - 1, dirtyHit := l.dirtyHit || hit }
    Gives (.probeAckAtHome ⟨src, h⟩ cid line hit) s (settleLine s1 h cid line) ∧ (1 < x.acks → settleLine s1 h cid line = s1)) ∧
  (∀ ctrl page cid s, (s.pkg.hotCtl.getLsbD 31 = true → Gives (.memoryControllerRequest ctrl page cid) s
      (modPkg s fun p => { p with ctrls := put p.ctrls ctrl (counted s ctrl page cid) })) ∧
    (s.pkg.hotCtl.getLsbD 31 = false → Gives (.memoryControllerRequest ctrl page cid) s s)) ∧
  (∀ ctrl s,
    let s0 := dropTimer s (.hotnessIntervalEnd ctrl)
    let h := hotCtrl s0 ctrl
    let at_ := hotPlace s0 ctrl
    let seq := (h.seq + 1) % 2 ^ 32
    let again := fun (s : State) (h : HotCtrl) =>
      post (modPkg s fun p => { p with ctrls := put p.ctrls ctrl h }) (.hotnessIntervalEnd ctrl)
    (s.pkg.hotCtl.getLsbD 31 = false → h.phase = 0 → Gives (.hotnessIntervalEnd ctrl) s s0) ∧
    (s.pkg.hotCtl.getLsbD 31 = true ∨ h.phase ≠ 0 →
      (at_ = 0 → Gives (.hotnessIntervalEnd ctrl) s (nextInterval s0 ctrl)) ∧
      (at_ ≠ 0 → notFree s0 (hotVisits s0 ctrl) = true →
        Gives (.hotnessIntervalEnd ctrl) s (post (recallAll s0 (hotVisits s0 ctrl)) (.hotnessIntervalEnd ctrl))) ∧
      (at_ ≠ 0 → hotVisits s0 ctrl = [] →
        (h.phase = 0 → Gives (.hotnessIntervalEnd ctrl) s
          (again (physWords s0 at_ [hotHeader (hotEntries h) seq]) { h with seq := seq, out := hotEntries h, phase := 1 })) ∧
        (h.phase = 1 → Gives (.hotnessIntervalEnd ctrl) s (again (physWords s0 (at_ + 8) h.out) { h with phase := 2 })) ∧
        (h.phase = 2 → Gives (.hotnessIntervalEnd ctrl) s
          (nextInterval (physWords s0 at_ [hotHeader h.out seq]) ctrl))))) ∧
  (∀ ctrl s, (hotCtrl (nextInterval s ctrl) ctrl).rows = [] ∧ (hotCtrl (nextInterval s ctrl) ctrl).cands = [] ∧
    (hotCtrl (nextInterval s ctrl) ctrl).phase = 0 ∧ (hotCtrl (nextInterval s ctrl) ctrl).seq % 2 = 0 ∧
    .hotnessIntervalEnd ctrl ∈ (nextInterval s ctrl).timers) ∧
  (∀ (v : Word) s, ∃ s', Gives (.mgHotctlWrite v) s s' ∧ s'.pkg.hotCtl = (v &&& 0x80003FFF) ∧ s'.mem = s.mem ∧
    (∀ c ∈ s'.pkg.ctrls, c.2.rows = [] ∧ c.2.cands = []) ∧ ∀ c, c < 260 → Event.hotnessIntervalEnd c ∈ s'.timers ∧ Event.hotnessIntervalEnd c ∉ s'.due) ∧
  (∀ (r : Access) s n slot, r.agent = .load slot → r.op = .read n → s.poison = [] → 0 < n → chipBase + r.addr + n ≤ coreBase →
    Gives (.chipScratchpadAccess r) s (post (readEarly s slot r.tx)
      (.loadDataArrives ⟨nodeSlice (chipSlice r.addr), slot⟩ r.tx r.addr ⟨.data (readBytes s.mem (chipBase + r.addr) n), false⟩))) ∧
  (∀ (r : Access) s a b c es, r.agent = .journal c es → r.op = .write [(a, b)] → s.poison = [] → es ≠ [] → r.addr ≤ a →
    chipBase + a < coreBase →
    Gives (.chipScratchpadAccess r) s
      (post { s with mem := setByte s.mem (chipBase + a) b } (.storeAck ⟨nodeSlice (chipSlice r.addr), c⟩ es 0 none))) ∧
  (∀ (r : Access) s slot, r.agent = .load slot → let src := nodeCore (remoteCore r)
    ((cluster s r.tgt).cid ≠ r.cid ∨ (cluster s r.tgt).acc.getLsbD (clusterOf r.core) = false →
      Gives (.remoteAccessArrival r) s (post s (.loadDataArrives ⟨src, slot⟩ r.tx r.addr ⟨.refused 0 r.tgt, false⟩))) ∧
    (∀ n, r.op = .read n → (cluster s r.tgt).cid = r.cid → (cluster s r.tgt).acc.getLsbD (clusterOf r.core) = true →
      s.poison = [] →
      let a := place r.core .remc r.tgt r.addr
      illWords s a n = [] → (∀ x ∈ (cluster s r.tgt).touches, x.who ≠ .event (.remoteAccessArrival r)) →
      (∀ s1, touchLater s a n r = some s1 → Gives (.remoteAccessArrival r) s s1) ∧
      (touchLater s a n r = none → landedFor s a (.remoteAccessArrival r) = none →
        Gives (.remoteAccessArrival r) s (post (readEarly (noteReads s a n) slot r.tx)
          (.loadDataArrives ⟨src, slot⟩ r.tx r.addr ⟨.data (readBytes s.mem a n), false⟩))))) ∧
  (∀ (r : Access) s c es, r.agent = .journal c es → let src := nodeCore (remoteCore r)
    ((cluster s r.tgt).cid ≠ r.cid → Gives (.remoteAccessArrival r) s (post s (.storeAck ⟨src, c⟩ es 2 none))) ∧
    ((cluster s r.tgt).cid = r.cid → (cluster s r.tgt).acc.getLsbD (clusterOf r.core) = false →
      Gives (.remoteAccessArrival r) s (post s (.storeAck ⟨src, c⟩ es 3 none)))) ∧
  (∀ dev scid (r : Access) s, (importFor s dev scid = none → Gives (.domAccessArrival dev scid r) s s) ∧
    (∀ cid got e, importFor s dev scid = some cid → walkVa s 0 cid r.addr = (got, e) → notFree s (tableVisits got) = true →
      Gives (.domAccessArrival dev scid r) s (post (recallAll s (tableVisits got)) (.domAccessArrival dev scid r))) ∧
    (∀ cid got f, importFor s dev scid = some cid → walkVa s 0 cid r.addr = (got, .error f) → notFree s (tableVisits got) = false →
      Gives (.domAccessArrival dev scid r) s (noteWalk s 0 got)) ∧
    (∀ cid got e, importFor s dev scid = some cid → walkVa s 0 cid r.addr = (got, .ok e) → notFree s (tableVisits got) = false →
      let q := { r with agent := .device dev, cid := cid, handle := none, m := false }
      let x := translated e q
      let s1 := noteWalk s 0 got
      (permits s1 e q = true → Gives (.domAccessArrival dev scid r) s (post s1 (.requestAtHome (homeSlice x.home x.phys) x))) ∧
      (permits s1 e q = false → Gives (.domAccessArrival dev scid r) s s1))) ∧
  (∀ (r : Access) s,
    let s1 := modPkg (dropTimer s (.domainTimeout r)) fun p => { p with lostTx := p.lostTx.filter fun t => t != r.tx }
    (∀ slot, r.agent = .load slot → Gives (.domainTimeout r) s
      (post s1 (.loadDataArrives ⟨nodeCore r.core, slot⟩ r.tx r.addr ⟨.refused 1 r.tgt, false⟩))) ∧
    (∀ c es, r.agent = .journal c es → Gives (.domainTimeout r) s (post s1 (.storeAck ⟨nodeCore r.core, c⟩ es 5 none))))

namespace Sys2Proof.Claims

/-- The tag of a basin line. -/
def lineTag (s : State) (c : Nat) (clus : Bool) (sline : Nat) : Option LineTag := find (Machine.core s c).tags (tagKey clus sline)

end Sys2Proof.Claims

/-- R61, R64 to R66, R68, R140 to R145, R391: a fill writes the absent, unprobed words of its basin line but those that come
poisoned, which stay absent; a probe makes CLEAN and SENT
words absent and keeps DIRTY ones, with OW; a recall drops clean words and REG; a write-back's acknowledgement makes SENT words
CLEAN or ABSENT and its refusal DIRTY again; a tow is installed, taken word by word, or reported wasted, and acknowledged; a step
boundary latches the counts and decides the state. That the words which a probe itself makes absent are marked probed is the
model's choice (log entry 41), as is a step that closes slice by slice, with the state that waits for the decision (log entry
19). -/
def Obligations.BasinAndTowEvents : Prop :=
  (∀ src c clus sline reg data s t, lineTag s c clus sline = some t →
    let bad := wordsMask data.bad
    let take := ~~~ t.v &&& ~~~ t.probed &&& ~~~ bad
    let at_ := slinePlace c clus sline
    let cells := ((List.range 128).filter fun i => take.getLsbD (i / 4)).map fun i => (at_ + i, data.bytes.getD i 0)
    ∃ s', Gives (.basinFillLands ⟨src, c⟩ clus sline reg data) s s' ∧ s'.mem = writeCells s.mem cells ∧
      lineTag s' c clus sline =
        some { t with fp := false, reg := reg && !t.unreg, v := t.v ||| take, probed := 0, unreg := false
                      ill := ~~~ t.v &&& ~~~ t.probed &&& bad }) ∧
  (∀ c clus sline h cid line mask fb s t, lineTag s c clus sline = some t →
    let m := BitVec.ofNat 32 mask
    let gone := (t.v &&& ~~~ t.dm &&& m) ||| (t.sent &&& m)
    ∃ s' t' pre, Gives (.basinInvalidationProbe c clus sline h cid line mask fb) s s' ∧ lineTag s' c clus sline = some t' ∧
      t'.v = t.v &&& ~~~ gone ∧ t'.dm = t.dm &&& ~~~ (t.sent &&& m) ∧ t'.sent = t.sent &&& ~~~ (t.sent &&& m) ∧
      t'.probed = (if t.fp then t.probed ||| (m &&& ~~~ t'.v) else t.probed) ∧
      s'.due = pre ++ [.probeAckAtHome ⟨nodeCore c, h⟩ cid line (fb && decide (t.dm &&& m ≠ 0))] ∧ s'.mem = s.mem ∧
      (∀ b, basin s c t.bn = some b → t.dm &&& m ≠ 0 → basin s' c t.bn = some { b with ow := true, cf := b.cf || fb })) ∧
  (∀ c clus sline h cid line s t, lineTag s c clus sline = some t →
    ∃ s' t' pre, Gives (.recallProbe c clus sline h cid line) s s' ∧ lineTag s' c clus sline = some t' ∧
      t'.v = t.v &&& ~~~ (t.v &&& ~~~ t.dm) ∧ t'.dm = t.dm ∧ t'.sent = t.sent ∧ t'.reg = false ∧
      t'.unreg = t.fp ∧ t'.tow = none ∧
      t'.probed = (if t.fp then t.probed ||| ~~~ t'.v else t.probed) ∧
      s'.due = pre ++ [.probeAckAtHome ⟨nodeCore c, h⟩ cid line false] ∧ s'.mem = s.mem) ∧
  (∀ src c tx bn clus sline reg cf refused hp s t w, lineTag s c clus sline = some t → t.bn = bn →
    (Machine.core s c).wbs.find? (fun w => w.tx == tx) = some w →
    let m := w.mask &&& t.sent
    ∃ s', Gives (.writeBackAck ⟨src, c⟩ tx bn clus sline reg ⟨cf, hp⟩ refused) s s' ∧ s'.mem = s.mem ∧
      lineTag s' c clus sline = some (if refused then { t with sent := t.sent &&& ~~~ m }
        else if reg && t.reg then { t with dm := t.dm &&& ~~~ m, sent := t.sent &&& ~~~ m }
        else { t with v := t.v &&& ~~~ m, dm := t.dm &&& ~~~ m, sent := t.sent &&& ~~~ m })) ∧
  (∀ c h cid line hd data s,
    (((Machine.core s c).mshr.any fun m => m.cid == cid && m.line == line) = true ∨ storeInFlight s c line = true →
      Gives (.towArrivesL1 c h cid line hd data) s
        (post (post s (.towUseReport ⟨nodeCore c, h⟩ hd false)) (.towAck ⟨nodeCore c, h⟩ cid line))) ∧
    (((Machine.core s c).mshr.any fun m => m.cid == cid && m.line == line) = false → storeInFlight s c line = false →
      Gives (.towArrivesL1 c h cid line hd data) s
        (post (l1Install s c { line := line, cid := cid, data := data, tow := some (hd, h) }) (.towAck ⟨nodeCore c, h⟩ cid line)))) ∧
  (∀ c h cid line hd data s,
    (((holdersOf s h cid line).find? fun o => o.core == c) = none →
      Gives (.towArrivesBasin c h cid line hd data) s
        (post (post s (.towUseReport ⟨nodeCore c, h⟩ hd false)) (.towAck ⟨nodeCore c, h⟩ cid line))) ∧
    (∀ o t, ((holdersOf s h cid line).find? fun o => o.core == c) = some o → lineTag s c o.clus o.sline = some t →
      let take := (if t.fp then t.v else BitVec.allOnes 32) &&& ~~~ t.dm
      let a := slinePlace c o.clus o.sline
      let cells := ((List.range 128).filter fun i => take.getLsbD (i / 4)).map fun i => (a + i, data.getD i 0)
      (take ≠ 0 → t.reg = true → Gives (.towArrivesBasin c h cid line hd data) s (post
        (setTag (writeWords s cells) c o.clus o.sline { t with v := t.v ||| take, ill := t.ill &&& ~~~ take, tow := some (hd, h) })
          (.towAck ⟨nodeCore c, h⟩ cid line))) ∧
      (take = 0 ∨ t.reg = false → Gives (.towArrivesBasin c h cid line hd data) s
        (post (post s (.towUseReport ⟨nodeCore c, h⟩ hd false)) (.towAck ⟨nodeCore c, h⟩ cid line))))) ∧
  (∀ src h cid line s, Gives (.towAck ⟨src, h⟩ cid line) s
    (settleLine (modLine s h cid line fun l => { l with towing := l.towing - 1 }) h cid line)) ∧
  (∀ src h hd used s,
    (sliceStep s h hd = .replaying ∨ sliceStep s h hd = .deciding →
      Gives (.towUseReport ⟨src, h⟩ hd used) s (countTow s h hd (if used then (1, 0, 0) else (0, 1, 0)))) ∧
    (sliceStep s h hd ≠ .replaying → sliceStep s h hd ≠ .deciding → Gives (.towUseReport ⟨src, h⟩ hd used) s s)) ∧
  (∀ h hd slot s t, towDesc s hd = some t →
    let got := (find (slice s h).counts hd).getD (0, 0, 0)
    let u := { t with sum := addCounts t.sum got, pending := t.pending - 1 }
    let s1 := clearStep s h hd
    (1 < t.pending → Gives (.stepMessage h hd slot) s (setTow s1 hd u)) ∧
    (t.pending = 1 → let s2 := setTow s1 hd (closeStep u)
      Gives (.stepMessage h hd slot) s
        (towWaitDone (forEach (s2.slices.map Prod.fst) (fun s h => decideStep s h hd ((closeStep u).st == .fallback)) s2) hd))) ∧
  (∀ h hd slot s, towDesc s hd = none → Gives (.stepMessage h hd slot) s s) ∧
  (∀ t : Tow, (t.st = .armed ∨ t.st = .replaying →
      (closeStep t).st = (if t.thr < t.sum.2.1 + t.sum.2.2 then .fallback else .replaying) ∧ (closeStep t).last = t.sum ∧
      (closeStep t).cum = addCounts t.cum t.sum) ∧
    (t.st = .recording → (closeStep t).st = (if t.rp then .armed else .recording)) ∧
    (t.st = .fallback → (closeStep t).st = .fallback) ∧ (closeStep t).step = (t.step + 1) % 2 ^ 32)

/-- R117, R119, R340, R378 to R380: the host at its links: it reads a half shared or for ownership, writes it, drops it, or
answers a back-invalidation; a window access in PCI Express mode is performed uncached at its home; a TAIL within the ring admits
slots and one beyond it sets RERR; a ring slot is taken. That a MemRd Shared of a half that the host owns, which the table of
R119 does not list, makes it shared with no other act, a BIRspS that answers a BISnpInv, and a MemInv of a half that is not
shared, are the model's choice (log entry 46), as are a ring visit that asks the host first (log entry 27) and the homing of a
line that no port knows (log entry 15). -/
def Obligations.HostLinkEvents : Prop :=
  (∀ h cid line half s x d, cxlUp s line = true → hostTracked s cid line = true → half < 2 → Idle s h cid line x d →
    Gives (.hostMemrdShared h cid line half) s (modLine (tick s) h cid line fun l => setHalf l half 1) ∧
    Gives (.hostMeminv h cid line half) s
      (modLine (tick s) h cid line fun l => if halfState l half == 1 then setHalf l half 0 else l)) ∧
  (∀ h cid line half s x d, cxlUp s line = true → hostTracked s cid line = true → half < 2 → Idle s h cid line x d →
    Alone s h cid line x → s.poison = [] →
    (∃ s' y, Gives (.hostMemrdOwn h cid line half) s s' ∧ lineAt s' h cid line = some y ∧ halfState y half = 2 ∧
      halfState y (1 - half) = halfState x (1 - half) ∧ y.dirty = x.dirty ∧ s'.mem = s.mem ∧ s'.due = s.due) ∧
    (∀ data m, halfState x half ≠ 2 → inHotArea s (line * 128) = false →
      ∃ s' y, Gives (.hostMemwr h cid line half data m) s s' ∧ lineAt s' h cid line = some y ∧
      halfState y half = m ∧ y.data = some (mergeCells d (cellsAt (line * 128 + half * 64) (data.take 64))) ∧ y.dirty = true ∧
      s'.mem = s.mem)) ∧
  (∀ h cid line half data m s x, cxlUp s line = true → lineAt s h cid line = some x → x.data.isSome = true → halfState x half = 2 →
    (∃ b ∈ x.bi, b.half = half ∧ b.blocking = true) → inHotArea s (line * 128) = false →
    let cells := cellsAt (line * 128 + half * 64) (data.take 64)
    Gives (.hostMemwr h cid line half data m) s (modLine (poisonCells s 4 line cells).1 h cid line fun l =>
      { l with data := l.data.map fun d => mergeCells d cells, dirty := true })) ∧
  (∀ h cid line half data m s, cxlUp s line = false →
    Gives (.hostMemrdShared h cid line half) s s ∧ Gives (.hostMemrdOwn h cid line half) s s ∧
    Gives (.hostMeminv h cid line half) s s ∧ Gives (.hostMemwr h cid line half data m) s s) ∧
  (∀ h cid line half data m s, inHotArea s (line * 128) = true → Gives (.hostMemwr h cid line half data m) s s) ∧
  (∀ h cid line half s, Gives (.hostMemspecrd h cid line half) s s) ∧
  (∀ h cid line half shared s x b, lineAt s h cid line = some x → (x.bi.find? fun b => b.half == half) = some b →
    let s1 := modLine s h cid line fun l =>
      setHalf { l with bi := dropBi half l.bi } half (if b.inv then 0 else 1)
    (∀ who tx, b.done = some (who, tx) →
      Gives (.backInvalidationResponse h cid line half shared) s (settleLine (hostDoneDue s1 h cid line who tx) h cid line)) ∧
    (b.done = none → Gives (.backInvalidationResponse h cid line half shared) s (settleLine s1 h cid line))) ∧
  (∀ n addr s v p m, find s.pkg.vfs n = some v → part s v.part = some p → s.pkg.link0 = .pcie → 0 < m →
    addr + m ≤ p.hsize * 2 ^ 16 →
    let pa := p.hbase * 2 ^ 16 + addr
    let home := homeFor s v.part pa
    m ≤ 128 - pa % 128 →
    Gives (.barWindowAccess n addr (.read m)) s
      (post (tick s) (.requestAtHome (homeSlice home pa) (hostAccess s v.part pa home (.read m))))) ∧
  (∀ n addr op s v p, find s.pkg.vfs n = some v → part s v.part = some p →
    (s.pkg.link0 ≠ .pcie ∨ p.hsize * 2 ^ 16 < barEnd addr op) → Gives (.barWindowAccess n addr op) s s) ∧
  (∀ n (tail : BitVec 32) s p, part s (vf s n).part = some p →
    let room := (tail.toNat + 2 ^ 32 - p.head) % 2 ^ 32
    (p.halted = true → Gives (.doorbellTail n tail) s s) ∧
    (p.halted = false → s.pkg.vfEnable = true → 2 ^ p.rn < room →
      Gives (.doorbellTail n tail) s (modVf s n fun v => { v with rerr := true })) ∧
    (p.halted = false → s.pkg.vfEnable = true → room ≤ 2 ^ p.rn → Gives (.doorbellTail n tail) s
      (postAll (modPart (modVf s n fun v => { v with tail := tail.toNat }) (vf s n).part fun p => { p with tail := tail.toNat })
        [.hostRingSlot (vf s n).part, .counterPoll (vf s n).part]))) ∧
  (∀ n (v : Word) s, (v.getLsbD 1 = true → Gives (.doorbellRerrClear n v) s (modVf s n fun x => { x with rerr := false })) ∧
    (v.getLsbD 1 = false → Gives (.doorbellRerrClear n v) s s)) ∧
  (∀ cid s, notFree s (ringVisits s cid) = true →
    Gives (.hostRingSlot cid) s (post (recallAll s (ringVisits s cid)) (.hostRingSlot cid))) ∧
  (∀ cid s p, notFree s (ringVisits s cid) = false →
    let s1 := (ringVisits s cid).foldl noteVisit s
    part s1 cid = some p → (p.head = p.tail → Gives (.hostRingSlot cid) s s1) ∧
    (∀ d, ringSlot s1 cid p = some d →
      (∀ s2 id, descBad d = none → enterLaunch s1 cid d = some (s2, id) → Gives (.hostRingSlot cid) s (advanceHead s2 cid)) ∧
      (descBad d = none → enterLaunch s1 cid d = none → Gives (.hostRingSlot cid) s s1) ∧
      (∀ i, descBad d = some i → fld (d.getD 4 0) 51 0 = 0 → Gives (.hostRingSlot cid) s (advanceHead s1 cid)) ∧
      (∀ i s2, descBad d = some i → fld (d.getD 4 0) 51 0 ≠ 0 → partStore s1 cid (fld (d.getD 4 0) 51 0) 2 = some s2 →
        Gives (.hostRingSlot cid) s (advanceHead s2 cid))))

/-! ### Events: scheduling, jobs and the package (spec/22_scheduling.md, spec/16_matrix.md, spec/27_host_links.md,
spec/28_reliability.md) -/

namespace Sys2Proof.Claims

/-- The slots of a core whose threads a tenant change has still to take, in rotation order after the access half's last
pick (R361). -/
def toHandOver (s : State) (c : Nat) : List Nat :=
  ((List.range 64).map fun i => c * 64 + ((Machine.core s c).rotA + 1 + i) % 64).filter fun k => match thr s k with
    | some t => t.saving.isNone && (((find s.flotillas t.flotilla).map fun f => f.next.isSome).getD false)
    | none => false

/-- The saved contexts of a core that may be given a slot, by when their waits ended (R347, class 1). -/
def comesBack (s : State) (c : Nat) : List Saved :=
  sortBy Saved.woke (s.saved.filter fun x => x.core == c && x.wakeDue && !x.held)

/-- A core once those that come first have had its free slots (R347). -/
def served (s : State) (c : Nat) : State := grantAll (refillQueue s c 8) c 128

/-- What a visit of the I/O die to some free lines has noted (R53, R371). -/
def visited (s : State) (vs : List Visit) : State := vs.foldl noteVisit s

/-- The first launch of a partition, in queue order, whose dependences hold (R342, R343). -/
def firstReady (s : State) (cid : Nat) (p : Part) : Option Launch :=
  (List.range 8).findSome? fun q => ((find p.queues q).getD []).find? (launchReady s cid p)

/-- A creation that reaches a core may start at once: no other waits before it, and its flotilla is not suspended; one that is
being handed over runs on as before (R284, R347, R361). -/
def MayStart (s : State) (c f : Nat) : Prop :=
  (flotillaHeld s f = false ∧ (Machine.core s c).spawnQ = []) ∨
  (flotillaHeld s f = true ∧ (∀ x, find s.flotillas f = some x → x.suspended = false) ∧ awayCount s c f = 0)

/-- A thread that a spawn makes (R285): its pc, its arguments from x0 on, its sizes; the parent's template, segments, level
and flotilla. -/
def Child (q : SpawnReq) (f : Nat) (t : Thread) : Prop :=
  t.pc = q.pc ∧ t.swid = q.swid ∧ t.regs = (q.args ++ List.replicate q.rsz 0).take q.rsz ∧ t.lsz = q.lsz ∧ t.spt = q.spt ∧
    t.segs = q.segs.map (fun g => { s0 := g.1, s1 := g.2 }) ∧ t.level = levelOf q.level ∧ t.tvec = q.tvec ∧
    t.flotilla = f ∧ t.status = .ready ∧ t.inh = false ∧ t.pend = []

end Sys2Proof.Claims

/-- R131, R175, R186, R284, R285, R289, R298, R299, R305, R306, R326, R347, R358 to R361: threads begin, are saved, come back
and end their waits: a spawn starts, queues or is refused; a slot goes to a saved context first, then to a reservation, then to
the spawn queue; a reported save becomes a saved context and its slot is given on; limits end their waits; messages and inbox
entries reach their places. A change whose lines are not free asks the host and comes again: the model's choice (log entry 27),
as are a save that is tried again (log entry 26), a slot that is lent (log entry 44), who takes a report (log entry 30), and that
an inbox entry stays in the inbox, with threads waiting to read it, until the one that it is for issues again (log entry 48). -/
def Obligations.SlotAndWaitEvents : Prop :=
  (∀ (q : SpawnReq) s,
    let s1 := served s q.target
    (∀ f, MayStart s1 q.target q.flotilla → fit s1 q.target q.rsz q.lsz = some f →
      ∃ t, Child q (countsTo s1 q.target q.flotilla) t ∧
        Gives (.spawnArrival q) s (answerSpawn (beginThread s1 f.1 t) q.from_ 0)) ∧
    (¬ MayStart s1 q.target q.flotilla ∨ fit s1 q.target q.rsz q.lsz = none →
      (flotillaHeld s1 q.flotilla = true →
        (awayCount s1 q.target q.flotilla < 8 → Gives (.spawnArrival q) s
          (answerSpawn (queueAway s1 q.target q.flotilla (.spawn q)) q.from_ 1)) ∧
        (8 ≤ awayCount s1 q.target q.flotilla → Gives (.spawnArrival q) s (answerSpawn s1 q.from_ 2))) ∧
      (flotillaHeld s1 q.flotilla = false →
        ((Machine.core s1 q.target).spawnQ.length < 8 → Gives (.spawnArrival q) s
          (makeRoom (answerSpawn (joinQueue s1 q.target (.spawn q)) q.from_ 1) q.target)) ∧
        (8 ≤ (Machine.core s1 q.target).spawnQ.length → Gives (.spawnArrival q) s (answerSpawn s1 q.from_ 2))))) ∧
  (∀ s slot d r t, thr s slot = some t → t.status = .wait (.spawn d) →
    answerSpawn s slot r = setThr s slot (completed t [(d.toNat, BitVec.ofNat 64 r)])) ∧
  (∀ c s, let s1 := giveSlots s c
    (cluster s1 (clusterOf c)).jobs = [] → (Machine.core s1 c).drain = [] → Gives (.slotGrant c) s s1) ∧
  (∀ c s, let s1 := served (changeMore s c) c
    giveSlots s c = if creationWaits s1 c then makeRoom s1 c else s1) ∧
  (∀ c s,
    (∀ q rest s1, (Machine.core s c).aged = true → (Machine.core s c).spawnQ = q :: rest → startQueued s c (q, 0) = some s1 →
      grantOne s c = some s1) ∧
    ((Machine.core s c).aged = false →
      (∀ x rest s1, comesBack s c = x :: rest → restore s x = some s1 → grantOne s c = some (recordFreed s1 c)) ∧
      (∀ s1, comesBack s c = [] → grantReserve s c = some s1 → grantOne s c = some s1) ∧
      (comesBack s c = [] → grantReserve s c = none → grantOne s c = grantQueue s c))) ∧
  (∀ c s, execHeadAged c s = .next
    (giveSlots (modCore (dropTimer s (.headAged c)) c fun x => { x with aged := !x.spawnQ.isEmpty }) c)) ∧
  (∀ slot s t forced, thr s slot = some t → t.saving = some forced →
    (saveDone s slot = false → Gives (.saveReported slot) s (post s (.saveReported slot))) ∧
    (saveDone s slot = true → (∀ f, find s.flotillas t.flotilla = some f → f.next = none) →
      let c := coreOf slot
      let x : Saved :=
        { core := c, slot := slot, thread := { t with saving := none, frc := forced }, vregs := laneBytes s c t,
          wakeDue := couldGo t, woke := s.nextTx, held := false }
      let s1 := renameTimers (delThr (swapEps s (cidOf s c) slot (awayKey t)) slot) slot (awayKey t)
      let s2 := renameIb { s1 with saved := s1.saved ++ [x] } c slot (awayKey t)
      Gives (.saveReported slot) s (giveSlots s2 c))) ∧
  (∀ c s,
    let room := savedCount s (cidOf s c) < recordsOf s c
    (toHandOver s c = [] → Gives (.forcedSave c) s s) ∧
    (∀ k, toHandOver s c = [k] → room → Gives (.forcedSave c) s (beginSave s k true)) ∧
    (∀ k j rest, toHandOver s c = k :: j :: rest → room →
      Gives (.forcedSave c) s (post (beginSave s k true) (.forcedSave c))) ∧
    (∀ k rest, toHandOver s c = k :: rest → ¬ room → Gives (.forcedSave c) s (postTimer s (.forcedSave c)))) ∧
  (∀ slot s t, thr s slot = some t → t.saving = none → (cluster s (clusterOf (coreOf slot))).touches = [] →
    (∀ l, t.status ≠ .wait (.touch l)) →
    (savedCount s (cidOf s (coreOf slot)) < recordsOf s (coreOf slot) → Gives (.slotLending slot) s
      (post (setThr s slot { t with saving := some false, landed := none, pops := [] }) (.saveReported slot))) ∧
    (recordsOf s (coreOf slot) ≤ savedCount s (cidOf s (coreOf slot)) → Gives (.slotLending slot) s s)) ∧
  (∀ slot s t, thr s slot = some t →
    (t.status = .wait .sleep →
      Gives (.sleepLimit slot) s (setThr (dropTimer s (.sleepLimit slot)) slot (completed t []))) ∧
    (∀ d n, t.status = .wait (.recv d n) →
      Gives (.recvtLimit slot) s
        (setThr (dropTimer s (.recvtLimit slot)) slot (completed t [(d.toNat, BitVec.ofNat 64 (2 * 2 ^ 56))])))) ∧
  (∀ c tree idx s, ((episode s c tree idx).counts = [] →
      Gives (.sluiceTimeout c tree idx) s (dropTimer s (.sluiceTimeout c tree idx))) ∧
    ((episode s c tree idx).counts ≠ [] → Gives (.sluiceTimeout c tree idx) s
      (settleSluice (releaseSluice s c tree idx (missingWord s c tree idx)) c tree idx))) ∧
  (∀ c (e : Word) s, (fld e 63 60 ≠ 1 ∨ jwaiter s c (fld e 15 0) = none) →
    ((Machine.core s c).inbox.length < 64 →
      Gives (.inboxDelivery c e) s (modCore s c fun x => { x with inbox := x.inbox ++ [e] })) ∧
    (64 ≤ (Machine.core s c).inbox.length →
      Gives (.inboxDelivery c e) s (modCore s c fun x => { x with inboxOver := x.inboxOver ++ [e] }))) ∧
  (∀ c (e : Word) s q, fld e 63 60 = 1 → jwaiter s c (fld e 15 0) = some q →
    ∃ s1, Gives (.inboxDelivery c e) s (wakeUnknown (takeReport s1 c (fld e 15 0))) ∧
      ∀ slot t d, thr s slot = some t → coreOf slot = c → t.seqno = q → waitOf t = some (.jwait d (fld e 15 0)) →
        thr s1 slot = some (completed t [(d.toNat, jobStatus s c (fld e 15 0))])) ∧
  (∀ (m : Message) s,
    let s1 := if m.hop = 0 then modCore s m.core fun x => { x with sendQ := x.sendQ.erase m } else s
    (epFind s1 m.cid m.at_ = none →
      Gives (.messageDelivery m) s (post s1 (.inboxDelivery m.core (bounceWord 5 m.name)))) ∧
    (∀ e, epFind s1 m.cid m.at_ = some e →
      (e.st = .exited → Gives (.messageDelivery m) s (post s1 (.inboxDelivery m.core (bounceWord 7 m.name)))) ∧
      (e.st = .moved → m.hop < 4 →
        Gives (.messageDelivery m) s (post s1 (.messageDelivery { m with at_ := e.stub, hop := m.hop + 1 }))) ∧
      (e.st = .moved → 4 ≤ m.hop → Gives (.messageDelivery m) s (post s1 (.inboxDelivery m.core (bounceWord 8 m.name)))) ∧
      (e.st = .placed → ringFree e = true → e.ovf = [] →
        (msgAllowed s1 e m = true → Gives (.messageDelivery m) s (wakeRecv (putLocal s1 m.at_ e m))) ∧
        (msgAllowed s1 e m = false → Gives (.messageDelivery m) s (post s1 (.inboxDelivery m.core (bounceWord 10 m.name))))))) ∧
  (∀ d i s n, find (tbl s d).snaps i = some n → n.runnable = true →
    let s1 := served s n.core
    (((Machine.core s n.core).spawnQ.contains (.snap d i) || (Machine.core s n.core).heldSnaps.contains (d, i)) = true →
      Gives (.snapshotRestore d i) s s) ∧
    ((Machine.core s n.core).spawnQ.contains (.snap d i) = false → (Machine.core s n.core).heldSnaps.contains (d, i) = false →
      (∀ s2, MayStart s1 n.core n.flotilla → startSnap s1 n.core d i = some s2 → Gives (.snapshotRestore d i) s s2) ∧
      (¬ MayStart s1 n.core n.flotilla ∨ startSnap s1 n.core d i = none →
        (flotillaHeld s1 n.flotilla = true → Gives (.snapshotRestore d i) s (queueAway s1 n.core n.flotilla (.snap d i))) ∧
        (flotillaHeld s1 n.flotilla = false →
          ((Machine.core s1 n.core).spawnQ.length < 8 →
            Gives (.snapshotRestore d i) s (makeRoom (joinQueue s1 n.core (.snap d i)) n.core)) ∧
          (8 ≤ (Machine.core s1 n.core).spawnQ.length → Gives (.snapshotRestore d i) s
            (makeRoom (modCore s1 n.core fun x => { x with heldSnaps := x.heldSnaps ++ [(d, i)] }) n.core)))))) ∧
  (∀ c (v : Word) s,
    (∀ j, find (Machine.core s c).journal (fld v 4 0) = some j → (j.ref = true ∨ j.code = 7) →
      Gives (.tsJrelWrite c v) s (post (modCore s c fun x => { x with journal := del x.journal (fld v 4 0) }) (.storeDrain c))) ∧
    (find (Machine.core s c).journal (fld v 4 0) = none → Gives (.tsJrelWrite c v) s s)) ∧
  (∀ c (v : Word) s,
    let vs := changeVisits s c v
    let s1 := visited s vs
    (notFree s vs = true → Gives (.tsTchgWrite c v) s (post (recallAll s vs) (.tsTchgWrite c v))) ∧
    (notFree s vs = false →
      (∀ f x l, (s1.flotillas.find? fun f =>
            f.2.cid == cidOf s1 c && f.2.launch.id == fld v 63 32 && !f.2.suspended && f.2.next.isNone) = some (f, x) →
          changing s1 x.clusters = false →
        (tenantFor s1 (cidOf s1 c) x (fld v 31 0) = some l → Gives (.tsTchgWrite c v) s (beginChange s1 f x l)) ∧
        (tenantFor s1 (cidOf s1 c) x (fld v 31 0) = none → Gives (.tsTchgWrite c v) s s1)) ∧
      ((∀ f ∈ s1.flotillas, f.2.cid ≠ cidOf s1 c) → Gives (.tsTchgWrite c v) s s1))) ∧
  (∀ (v : Word) s j, jobAt s (fld v 23 16) (fld v 15 0) = some j → j.st = .stopped → j.parked ≠ [] →
    (jobUnit j = 0 ↔ fld v 24 24 = 0) →
    Gives (.tsEwakeWrite v) s (post s (.jobResume (fld v 23 16) (fld v 15 0))))

namespace Sys2Proof.Claims

/-- The scheduler has read the counters that queued launches wait on: each is counted and its line noted, the host is asked
for a half that it owns, and the launches whose dependences hold are known to be ready (R342, R343, R119). -/
def countersRead (s : State) (cid : Nat) : State :=
  markReady (((watchedCounters s cid).flatMap fun a => visitsTo s cid a 8 .read).foldl
    (fun s v => noteVisit (if heldUp s v then s else recallHalves s v) v) s) cid

/-- A partition's counters are read again while a launch waits on one (R342). -/
def pollOn (s0 s : State) (cid : Nat) : State := if (watchedCounters s0 cid).isEmpty then s else postTimer s (.counterPoll cid)

end Sys2Proof.Claims

/-- R342 to R346: the scheduler considers a partition's launches: the first one ready in queue order is read, checked and placed
on clusters as a flotilla, or retired BAD where it cannot be read or depends on itself; counters are read again while a launch
waits on one; a flotilla without threads lets what is queued on its cores start, then writes its basins back, and then gives its
clusters back and writes its record. That a line which is busy or in the host's hands is visited later is the model's choice (log entry
27), as are that a flotilla which is suspended, or whose last thread ends while it is handed over, drops no basin (log entry 49). -/
def Obligations.LaunchEvents : Prop :=
  (∀ cid s, let s1 := countersRead s cid
    (placeStep s1 cid = none → Gives (.launchPlacement cid) s (pollOn s s1 cid) ∧ Gives (.counterPoll cid) s (pollOn s s1 cid)) ∧
    (∀ s2, placeStep s1 cid = some (s2, false) →
      Gives (.launchPlacement cid) s (pollOn s s2 cid) ∧ Gives (.counterPoll cid) s (pollOn s s2 cid)) ∧
    (∀ s2, placeStep s1 cid = some (s2, true) →
      let s3 := markReady s2 cid
      placeStep s3 cid = none →
      Gives (.launchPlacement cid) s (pollOn s s3 cid) ∧ Gives (.counterPoll cid) s (pollOn s s3 cid))) ∧
  (∀ cid s p l, part s cid = some p →
    (((List.range 8).flatMap fun q => (find p.queues q).getD []).find? selfDependent) = some l →
    notFree s (recordVisits s cid l) = false →
    placeStep s cid = some (retireBad (visited s (recordVisits s cid l)) cid l, true)) ∧
  (∀ cid s p, part s cid = some p →
    (((List.range 8).flatMap fun q => (find p.queues q).getD []).find? selfDependent) = none →
    (firstReady s cid p = none → placeStep s cid = none) ∧
    (∀ l, firstReady s cid p = some l →
      let vs := launchVisits s cid l
      (l.read = false → notFree s vs = true → placeStep s cid = some (postTimer (recallAll s vs) (.counterPoll cid), false)) ∧
      (l.read = false → notFree s vs = false → readLaunch s cid l = none → notFree s (recordVisits s cid l) = false →
        placeStep s cid = some (retireBad (visited s (recordVisits s cid l)) cid l, true)) ∧
      (∀ l' ks tree s2, l.read = false → notFree s vs = false → readLaunch s cid l = some l' →
        chooseClusters (visited s vs) p l' = some (ks, tree) → placeLaunch (visited s vs) cid p l' ks tree = some s2 →
        placeStep s cid = some (s2, true)) ∧
      (∀ l', l.read = false → notFree s vs = false → readLaunch s cid l = some l' →
        chooseClusters (visited s vs) p l' = none →
        let keep := fun (x : Launch) => if x.id == l.id then l' else x
        placeStep s cid = some
          (modPart (visited s vs) cid fun p => { p with queues := p.queues.map fun q => (q.1, q.2.map keep) }, true)) ∧
      (∀ ks tree s2, l.read = true → chooseClusters s p l = some (ks, tree) → placeLaunch s cid p l ks tree = some s2 →
        placeStep s cid = some (s2, true)) ∧
      (l.read = true → chooseClusters s p l = none → placeStep s cid = none))) ∧
  (∀ f s x, find s.flotillas f = some x → (threadCount s f ≠ 0 ∨ x.entries ≠ []) → Gives (.flotillaRetirement f) s s) ∧
  (∀ f s x, find s.flotillas f = some x → threadCount s f = 0 → x.entries = [] →
    let again := Event.flotillaRetirement f
    (x.next ≠ none → Gives (.flotillaRetirement f) s (post (completeChange s f) again)) ∧
    (x.next = none → retireReady s f = false → Gives (.flotillaRetirement f) s (post s again)) ∧
    (x.next = none → retireReady s f = true → x.suspended = true → notFree s (retireVisits s x) = false →
      Gives (.flotillaRetirement f) s (retire (visited s (retireVisits s x)) f { x with clusters := [] })) ∧
    (x.next = none → retireReady s f = true → x.suspended = false →
      let queued := (coresOf x.clusters).any fun c => !(Machine.core s c).spawnQ.isEmpty || !(Machine.core s c).heldSnaps.isEmpty
      let open_ := (coresOf x.clusters).any fun c => (Machine.core s c).basins.any fun b => b.2.st == .active
      (queued = true → Gives (.flotillaRetirement f) s (postAll s ((coresOf x.clusters).map .slotGrant ++ [again]))) ∧
      (queued = false → open_ = true → Gives (.flotillaRetirement f) s (post (dropBasins s x.clusters) again)) ∧
      (queued = false → open_ = false → notFree s (retireVisits s x) = true →
        Gives (.flotillaRetirement f) s (post (recallAll s (retireVisits s x)) again)) ∧
      (queued = false → open_ = false → notFree s (retireVisits s x) = false →
        Gives (.flotillaRetirement f) s (retire (visited s (retireVisits s x)) f x))))

namespace Sys2Proof.Claims

/-- It is a queued job's turn at its engine (R258, R348). -/
def ItsTurn (s : State) (k id : Nat) (j : Job) (matrix : Bool) : Prop :=
  jobAt s k id = some j ∧ j.ended = false ∧ j.st = .queued ∧ (nextTaken s k matrix).map Job.id = some id

/-- A job runs and has not ended. -/
def Runs (s : State) (k id : Nat) (j : Job) : Prop := jobAt s k id = some j ∧ j.ended = false ∧ j.st = .running

/-- A job whose step has been made waits for no fill any more (R61), and what expanders have answered for it is used up
(R386). -/
def stepMade (s : State) (k : Nat) (j : Job) : State :=
  leaveTouch (modJob s k j.id fun q => { q with ext := [] }) k (.event (jobEvent k j)) none

/-- A step of a job: made whole where nothing keeps it (R252, R274). -/
def MakesStep (e : Instr) (s : State) (k id : Nat) (j : Job) (act : EM Unit) : Prop :=
  Gives e s (runJob s k id act) ∧ ∀ s1, act s = .ok ((), s1) → Gives e s (stepMade s1 k j)

/-- A gang command's job is taken at its turn and waits for its gang; it starts once the gang is complete (R258). -/
def GangTurns (e : Nat → Nat → Instr) : Prop :=
  (∀ k id s j, ItsTurn s k id j true → Gives (e k id) s (wakeJob (take s k j .gathering) k id)) ∧
  (∀ k id s j, jobAt s k id = some j → j.ended = false → j.st = .gathering →
    (gangReady s k j = true → Gives (e k id) s (startGang s k j)) ∧ (gangReady s k j = false → Gives (e k id) s s))

/-- A copy command's job is taken at its turn while one of the four places is free; it reads its descriptor, then writes unit
after unit, and ends OK once all are acknowledged and its arrival stream has room for what is left (R218, R258, R274, R276). -/
def CopyTurns (e : Nat → Nat → Instr) : Prop :=
  (∀ k id s j, ItsTurn s k id j false → (copyPlaces s k < 4 → Gives (e k id) s (wakeJob (take s k j .running) k id)) ∧
    (4 ≤ copyPlaces s k → Gives (e k id) s s)) ∧
  (∀ k id s j, Runs s k id j →
    (j.desc = [] → MakesStep (e k id) s k id j (copyStart k id j)) ∧
    (∀ w ws p, j.desc = w :: ws → planOf (jobOpc j) (w :: ws) = some p →
      MakesStep (e k id) s k id j (copyStep k id j p) ∧
      (p.barges ≤ j.nextUnit / 65536 → j.unacked = [] → j.acked.length ≤ 16 →
        Gives (e k id) s (stepMade (endJob s k id 0) k j))))

/-- A domain command's job is taken at its turn; it is FAULT where another of its tag and set is out, alone it goes on, else it
waits for the other participants, and then writes unit after unit (R280, R281). -/
def DomainTurns (e : Nat → Nat → Instr) : Prop :=
  (∀ k id s j, ItsTurn s k id j false → copyPlaces s k < 4 →
    let s1 := take s k j .running
    let alone := (List.range 64).all fun d => j.c3.getLsbD d == (d == s1.pkg.dev)
    (collides s1 k j = true → Gives (e k id) s (endJob s1 k id 2)) ∧
    (collides s1 k j = false → alone = true →
      Gives (e k id) s (wakeJob (modJob s1 k id fun q => { q with peers := some [] }) k id)) ∧
    (collides s1 k j = false → alone = false → Gives (e k id) s (postTimer s1 (.collectiveTimeout k id)))) ∧
  (∀ k id s j, ItsTurn s k id j false → 4 ≤ copyPlaces s k → Gives (e k id) s s) ∧
  (∀ k id s j, Runs s k id j → MakesStep (e k id) s k id j (domStep k id j) ∧
    (∀ ps, j.peers = some ps → (domPlan j).barges ≤ j.nextUnit / 65536 → j.unacked = [] →
      Gives (e k id) s (stepMade (endJob s k id 0) k j)))

end Sys2Proof.Claims

/-- R252, R255, R257 to R259, R265, R267 to R273, R348: the matrix jobs: MT.CTX loads its core's context as it is taken; MT.TERN,
MT.BOOTH, MT.ZERO and MT.DRAIN are taken, wait for their gangs, and then start or stop with BADCTX (no context, or another format)
or ACCLOST (no such held set); a ring step is made on every member; a drain moves a row and clears its accumulators; a row starts
a handler; pre-emption and resumption; a job that has waited its limit counts as PRI. That MT.ZERO, MT.DRAIN and domain jobs are
not stopped within their one step is the model's choice (log entry 30), as is when a gang starts (log entry 28). -/
def Obligations.MatrixJobEvents : Prop :=
  (∀ k id s j, ItsTurn s k id j true → Gives (.mtCtx k id) s
    (endJob (modCore (take s k j .running) (k * 8 + j.core) fun x => { x with ctx := some (newCtx j) }) k id 0)) ∧
  GangTurns .mtTern ∧ GangTurns .mtBooth ∧ GangTurns .mtZero ∧ GangTurns .mtDrain ∧
  (∀ k s j,
    let s1 := gangDone (modJob s k j.id fun i => { i with st := .running, ctx := (Machine.core s (k * 8 + j.core)).ctx }) k j.id
    let zero := (jobOpc j == 2 || jobOpc j == 3) && j.c0.getLsbD 8
    ((Machine.core s (k * 8 + j.core)).ctx = none → startGang s k j = endJob s1 k j.id 5) ∧
    (∀ x, (Machine.core s (k * 8 + j.core)).ctx = some x →
      (ctxSuits (jobOpc j) x = false → startGang s k j = endJob s1 k j.id 5) ∧
      (ctxSuits (jobOpc j) x = true → jobOpc j = 4 → startGang s k j = wakeJob s1 k j.id) ∧
      (ctxSuits (jobOpc j) x = true → jobOpc j ≠ 4 → zero = false → heldMatches s1 k j x.sc = false →
        startGang s k j = endJob s1 k j.id 3) ∧
      (ctxSuits (jobOpc j) x = true → jobOpc j ≠ 4 → (zero = true ∨ heldMatches s1 k j x.sc = true) →
        startGang s k j = wakeJob (takeSlices s1 k j x.sc zero) k j.id))) ∧
  (∀ k id s j x, Runs s k id j → j.preempted = false → j.draining = false → j.ctx = some x →
    ((jobOpc j = 2 ∨ jobOpc j = 3) → MakesStep (.ringStep k id) s k id j (tileStep k id j x)) ∧
    (jobOpc j = 4 → Gives (.ringStep k id) s (stepMade (endJob (zeroStep s k j x) k id 0) k j)) ∧
    (jobOpc j = 5 → Gives (.ringStep k id) s (stepMade (beginDrain s k id) k j))) ∧
  (∀ acc a w, let v := (BitVec.ofNat 36 acc).toInt + dotOf a w
    cellInt acc [a] [w] = if 2 ^ 35 ≤ v then (2 ^ 35 - 1, true) else if v < -(2 ^ 35) then (2 ^ 35, true)
      else ((BitVec.ofInt 36 v).toNat, false)) ∧
  (∀ k id i s j x n, Runs s k id j → j.draining = true → j.preempted = false → j.ctx = some x → nextRow j i = some n →
    (jobMembers j).contains i = true → (Machine.core s (k * 8 + i)).drain.length < 4 →
    let h := (Machine.core s (k * 8 + i)).held
    let row : DrainRow :=
      { job := id, x0 := tileNow j * 2 ^ 16 + 64 * (i - (jobMembers j).headD 0) + n,
        vals := (List.range 64).map fun m => rowValue x ((find h.acc (64 * n + m)).getD 0), esz := rowEsz x, started := false }
    let s1 := modCore s (k * 8 + i) fun y =>
      { y with drain := y.drain ++ [row], held := { h with acc := h.acc.filter fun a => a.1 / 64 != n } }
    Gives (.rowDrain k id i) s (tileDone (postAll (modJob s1 k id fun j => { j with rows := j.rows ++ [(i, n)] })
      [.rowHandlerStart (k * 8 + i), .rowDrain k id i]) k id)) ∧
  (∀ k id i s j, jobAt s k id = some j → 4 ≤ (Machine.core s (k * 8 + i)).drain.length → Gives (.rowDrain k id i) s s) ∧
  (∀ c s r v x, readyRow s c = some (r, v) → (jobAt s (clusterOf c) r.job).bind Job.ctx = some x →
    let s1 := modCore s c fun y => { y with
      drain := y.drain.map fun q => if q.job == r.job && q.x0 == r.x0 then { q with started := true } else q }
    let t := { handlerThread x v r with flotilla := countsTo s1 c v.flotilla }
    Gives (.rowHandlerStart c) s (post (beginThread s1 v.slot t) (.rowHandlerStart c))) ∧
  (∀ c s, readyRow s c = none → Gives (.rowHandlerStart c) s s) ∧
  (∀ k id s j, Runs s k id j → j.preempted = false →
    let s1 := modJob s k id fun i => { i with preempted := true }
    (jobUnit j = 1 → Gives (.jobPreemption k id) s (wakeJob s1 k id)) ∧
    (jobOpc j = 2 ∨ jobOpc j = 3 → j.recorded = false →
      ∀ j1, jobAt s1 k id = some j1 → Gives (.jobPreemption k id) s (runJob s1 k id (saveJob k id j1))) ∧
    (jobOpc j = 4 ∨ jobOpc j = 5 ∨ jobUnit j = 2 → Gives (.jobPreemption k id) s s)) ∧
  (∀ k id s j, jobAt s k id = some j → j.ended = false → jobUnit j ≠ 0 →
    (j.st = .running → Gives (.jobResume k id) s (wakeJob (modJob s k id fun i => { i with preempted := false }) k id)) ∧
    (j.st = .stopped →
      let s1 := resendWrites (modJob s k id fun i => { i with parked := [] }) j.parked
      (jobHeld s1 j = true → Gives (.jobResume k id) s s1) ∧
      (jobHeld s1 j = false → Gives (.jobResume k id) s
        (wakeJob (modJob s1 k id fun i => { i with st := .running, preempted := false }) k id)))) ∧
  (∀ k id s, execJobAged k id s = .next
    (kickEngine (modJob (dropTimer s (.jobAged k id)) k id fun j => { j with aged := true }) k)) ∧
  (∀ s k matrix i j, heads s k matrix = [i, j] → i.c0.getLsbD 15 = false → i.aged = false → j.aged = true → j.core < 8 →
    nextTaken s k matrix = some j)

/-- R122, R125 to R127, R258, R274 to R281: the copy unit's and the domain's jobs: CP.COPY, CP.FILL, CP.GATH, CP.SCAT and CP.RED
are taken at their turn while a place is free, read their descriptors and then write unit after unit; acknowledgements advance a
job and a refusal is FAULT; CP.AR and CP.BCAST stop with FAULT if another of their tag and set is out or a participant differs, and
with TIMEOUT if one does not answer. -/
def Obligations.CopyJobEvents : Prop :=
  CopyTurns .cpCopy ∧ CopyTurns .cpFill ∧ CopyTurns .cpGath ∧ CopyTurns .cpScat ∧ CopyTurns .cpRed ∧
  DomainTurns .cpAr ∧ DomainTurns .cpBcast ∧
  (∀ src k id u hp poisoned sums s j, jobAt s k id = some j → j.ended = false →
    let note := fun (q : Job) => { q with psn := q.psn || poisoned, hp := if hp then q.hp + 1 else q.hp }
    Gives (.copyWriteAck ⟨src, k⟩ id u true hp ⟨poisoned, sums⟩) s
      (wakeJob (modJob s k id fun q => ackUnit (note q) u sums) k id) ∧
    (u < 2 ^ 40 → Gives (.copyWriteAck ⟨src, k⟩ id u false hp ⟨poisoned, sums⟩) s
      (finishJob (endJob (modJob s k id fun q => loseUnit (note q) u) k id 2) k id))) ∧
  (∀ k id ps s j, Runs s k id j → jobUnit j = 2 → j.peers = none → j.cutOff = false → whole j s.pkg.dev ps = true →
    (ps.all (agrees j) = true →
      Gives (.collectiveMatch k id ps) s (wakeJob (modJob s k id fun q => { q with peers := some ps }) k id)) ∧
    (ps.all (agrees j) = false →
      Gives (.collectiveMatch k id ps) s (endJob (dropTimer s (.collectiveTimeout k id)) k id 2))) ∧
  (∀ k id s j, Runs s k id j → jobUnit j = 2 →
    let o := jobOp j 2
    let n := Nat.min (domCount j * domSize j) (o.base + o.limit - o.addr)
    let s1 := (List.range n).foldl (fun s i => wildByte s k o (k * 8 + j.core) (o.addr + i)) (dropTimer s (.collectiveTimeout k id))
    Gives (.collectiveTimeout k id) s (endJob s1 k id 4))

namespace Sys2Proof.Claims

/-- No mailbox command runs. -/
def MailFree (s : State) : Prop := s.due.any isMailbox = false

/-- A command word and its arguments recorded, the argument words past them as they were, the status 0 (R382). -/
def commanded (s : State) (c : Word) (args : List Word) : State :=
  modPkg s fun p => { p with mailCmd := c, mailArgs := args ++ p.mailArgs.drop args.length, mailbox := 0 }

/-- The walks of a new partition's ring have been noted, and nothing else (R53, R371, R382). -/
def ringWalked (s : State) (cid : Nat) (p : Part) : State :=
  { noteRing { s with parts := put s.parts cid p } cid p.rbase (128 * (2 ^ p.rn + 1)) with parts := s.parts }

/-- A command's end: DONE and its result (R382). -/
def ended (s : State) (code : Nat) : State := modPkg s fun p => { p with mailbox := BitVec.ofNat 64 (2 ^ 63 + code) }

end Sys2Proof.Claims

/-- R33, R381, R382, R384, R385, R387, R388: the mailbox: a command written while another runs is ignored; one written before
READY, or before its own condition holds, waits; then it ends with its result: 0, or 1 for a bad argument, 2 for a taken one, 3
for a ring outside the partition's ranges. That a bind whose lines are not free asks the host and comes again is the model's
choice (log entry 27), as are a FLUSH-COMMON that goes on as lines may leave and the arguments that stay recorded (log entry
33). -/
def Obligations.MailboxCommands : Prop :=
  (∀ s d cid n (w : Word) area, s.due.any isMailbox = true →
    Gives (.partCreate d) s s ∧ Gives (.partDestroy cid) s s ∧ Gives (.vfBind n cid) s s ∧ Gives .flushCommon s s ∧
    Gives (.domainSet w area) s s) ∧
  (∀ s d cid n, MailFree s → s.pkg.ready = false →
    Gives (.partCreate d) s (post (commanded s 1 d) (.partCreate d)) ∧
    Gives (.partDestroy cid) s (post (commanded s 2 [BitVec.ofNat 64 cid]) (.partDestroy cid)) ∧
    Gives (.vfBind n cid) s (post (commanded s 3 [BitVec.ofNat 64 n, BitVec.ofNat 64 cid]) (.vfBind n cid)) ∧
    Gives .flushCommon s (post (commanded s 4 []) .flushCommon)) ∧
  (∀ s d, MailFree s → s.pkg.ready = true →
    let s1 := commanded s 1 d
    let cid := fld (d.getD 0 0) 11 0
    let p := newPart d
    (partDescBad d = true → Gives (.partCreate d) s (ended s1 1)) ∧
    (partDescBad d = false → partTaken s1 cid p = true → Gives (.partCreate d) s (ended s1 2)) ∧
    (partDescBad d = false → partTaken s1 cid p = false → ringInRanges s1 cid p = false →
      Gives (.partCreate d) s (ended (ringWalked s1 cid p) 3)) ∧
    (partDescBad d = false → partTaken s1 cid p = false → ringInRanges s1 cid p = true →
      Gives (.partCreate d) s (ended (makePart (ringWalked s1 cid p) cid p) 0))) ∧
  (∀ s cid, MailFree s → s.pkg.ready = true →
    let s1 := commanded s 2 [BitVec.ofNat 64 cid]
    (part s cid = none → Gives (.partDestroy cid) s (ended s1 1)) ∧
    (∀ p, part s cid = some p → ∃ s', Gives (.partDestroy cid) s s' ∧ part s' cid = none ∧
      s'.pkg.mailbox = 0x8000000000000000 ∧ ∀ k ∈ p.clusters, (cluster s' k).cid = 0)) ∧
  (∀ s n cid, MailFree s → s.pkg.ready = true →
    let s1 := commanded s 3 [BitVec.ofNat 64 n, BitVec.ofNat 64 cid]
    ((n = 0 ∨ 64 ≤ n) → Gives (.vfBind n cid) s (ended s1 1)) ∧
    (0 < n → n < 64 → cid ≠ 0 → part s cid = none → Gives (.vfBind n cid) s (ended s1 1)) ∧
    (0 < n → n < 64 → cid = 0 → Gives (.vfBind n cid) s (ended (modVf s1 n fun v => { v with part := 0 }) 0)) ∧
    (∀ p, 0 < n → n < 64 → cid ≠ 0 → part s cid = some p →
      ((vf s n).part ≠ 0 → (vf s n).part ≠ cid → Gives (.vfBind n cid) s (ended s1 2)) ∧
      (∀ v, boundVf s cid = some v → v ≠ n → Gives (.vfBind n cid) s (ended s1 2)) ∧
      ((vf s n).part = 0 ∨ (vf s n).part = cid → (∀ v, boundVf s cid = some v → v = n) →
        let vs := restartVisits s1 cid
        (notFree s1 vs = true → Gives (.vfBind n cid) s (post (recallAll s1 vs) (.vfBind n cid))) ∧
        (notFree s1 vs = false → Gives (.vfBind n cid) s
          (ended (restart (modVf (visited s1 vs) n fun v => { v with part := cid, halt := false }) cid n) 0))))) ∧
  (∀ s, MailFree s → s.pkg.ready = true → commonLines s = [] →
    Gives .flushCommon s (ended (flushCommonSide (commanded s 4 [])) 0)) ∧
  (∀ s h x, MailFree s → s.pkg.ready = true → commonLines s = [(h, x)] →
    let s1 := flushLine (commanded s 4 []) h x
    (mayLeave x = true → commonLines s1 = [] → Gives .flushCommon s (ended (flushCommonSide s1) 0)) ∧
    (mayLeave x = true → commonLines s1 ≠ [] → Gives .flushCommon s (post s1 .flushCommon)) ∧
    (mayLeave x = false → Gives .flushCommon s (post (commanded s 4 []) .flushCommon))) ∧
  (∀ s (w : Word) area, MailFree s → s.pkg.ready = true →
    (domQuiet s = false → Gives (.domainSet w area) s (post (commanded s 5 [w]) (.domainSet w area))) ∧
    (domQuiet s = true →
      ((fld w 63 32 ≠ 0 ∨ fld w 11 6 ≠ 0 ∨ fld w 31 12 = 0 ∨ 100000 < fld w 31 12 ∨
          (pieces 32 64 (area ++ List.replicate (2048 - area.length) 0)).any (importBad (commanded s 5 [w])) = true) → ∃ s', Gives (.domainSet w area) s s' ∧
        s'.pkg.mailbox = 0x8000000000000001 ∧ s'.pkg.dev = s.pkg.dev ∧ s'.pkg.imports = s.pkg.imports) ∧
      (fld w 63 32 = 0 → fld w 11 6 = 0 → fld w 31 12 ≠ 0 → fld w 31 12 ≤ 100000 →
        ((pieces 32 64 (area ++ List.replicate (2048 - area.length) 0)).any (importBad (commanded s 5 [w]))) = false →
        ∃ s', Gives (.domainSet w area) s s' ∧ s'.pkg.mailbox = 0x8000000000000000 ∧ s'.pkg.dev = fld w 5 0 ∧
          s'.pkg.timeout = fld w 31 12 ∧ s'.mem = s.mem)))

namespace Sys2Proof.Claims

/-- A state without one event due. -/
def undue (s : State) (e : Event) : State := { s with due := s.due.erase e }

/-- Granules of a line of the CXL tier once a write of them has had no response: a record and poison for each (R386). -/
def unanswered (s : State) (h cid line : Nat) (halves : List Nat) : State :=
  halves.foldl (fun s g => markPoison s (line * 128 + 64 * g) 64) (logExpander s h cid line halves)

/-- A number in words, lowest first. -/
def wordsOf (n v : Nat) : List Word := (List.range n).map fun i => BitVec.ofNat 64 (v / 2 ^ (64 * i))

/-- What a self-test with no spare left comes to (R393). -/
def WithoutSpare (s : State) (t : RowTest) (repaired : Bool) (s' : State) : Prop :=
  let unit := retireUnit t
  let way := retiredWays s t.str unit + 1
  let cache := t.str = 4 ∨ t.str = 5 ∨ t.str = 8
  (t.str = 9 → repaired = true → s' = s) ∧
  (t.str = 9 → repaired = false → s' = logAt s { errorRec 5 9 t.adr t.unit t.cid with unit := t.unit }) ∧
  (cache → way < cacheWays t.str →
    s' = post (shrinkCache (modPkg s fun p => { p with retired := put p.retired (cacheKey t.str unit) way }) t.str unit)
      (.wayRetired t.str t.adr (testClu t) t.cid)) ∧
  (t.str ≠ 9 → (cache → cacheWays t.str ≤ way) → s' = modPkg s fun p => { p with deg := true })

end Sys2Proof.Claims

/-- R385 to R387, R389, R391, R393 to R396: the package: VF Enable and a Function Level Reset halt partitions, and VF Enable set
again starts them empty; a failed port's routes move; an access of the CXL tier that has no response returns poison or poisons
the granules it wrote; an error that a read finds is corrected or poisons its granule, and one that no access has met only
poisons it, with no record yet; a self-test ends with its record, a retired way or DEG; the phases of
start-up with the measurements; the report with its signature; throttling; the shutdown. A start whose lines are not free asks the
host and comes again (log entry 27); the port that a failed port's routes move to is the model's choice (log entry 16), as are
which tests end with TYPE 5 and which with DEG, whose place a record names and what a CXL timeout leaves (log entry 39), the
fetches and walks among the reads it leaves as they were (log entry 18), a report in PHASE 4, the measurement registers as they
stood before a refused image, and what a signature covers and by which key (log entry 37), at most 15 clock steps (log entry 11)
and a reset that keeps the oracle and the free values' counter (log entries 1 and 10). -/
def Obligations.PackageEvents : Prop :=
  (∀ s, Gives .vfEnableClear s (((s.pkg.vfs.filter fun v => v.2.part != 0).map fun v => v.2.part).foldl halt
    (modPkg s fun p => { p with vfEnable := false }))) ∧
  (∀ s, let s1 := modPkg s fun p => { p with vfEnable := true }
    let s2 := visited s1 (enableVisits s)
    (notFree s1 (enableVisits s) = false →
      Gives .vfEnableSet s (s2.pkg.vfs.foldl (fun s v => restart s v.2.part v.1) s2)) ∧
    (notFree s1 (enableVisits s) = true → Gives .vfEnableSet s (post (recallAll s1 (enableVisits s)) .vfEnableSet))) ∧
  (∀ n s, ((vf s n).part = 0 → Gives (.functionLevelReset n) s s) ∧
    ((vf s n).part ≠ 0 → Gives (.functionLevelReset n) s (halt s (vf s n).part))) ∧
  (∀ s cid p, part s cid = some p → part (halt s cid) cid = some { p with halted := true, faults := [], queues := [] } ∧
    (∀ f ∈ (halt s cid).flotillas, f.2.cid ≠ cid) ∧ (∀ q ∈ (halt s cid).threads, p.clusters.contains (clusterOf (coreOf q.1)) = false)) ∧
  (∀ n s, n < 16 → s.pkg.portsDown.contains n = false → ∃ s', Gives (.aqueductPortFailure n) s s' ∧
    s'.pkg.portsDown = s.pkg.portsDown ++ [n] ∧ s'.threads = s.threads ∧ s'.mem = s.mem ∧ s'.due = s.due ∧ s'.timers = s.timers ∧
    (∀ dev, dev < 64 → routeOf s dev ≠ n → routeOf s' dev = routeOf s dev) ∧
    (∀ dev m, dev < 64 → routeOf s dev = n → m < 16 → m ≠ n → s.pkg.portsDown.contains m = false →
      routeOf s' dev < 16 ∧ routeOf s' dev ≠ n ∧ s.pkg.portsDown.contains (routeOf s' dev) = false) ∧
    (∀ r, Event.domainTimeout r ∈ s.timers → routeOf s r.tgt = n → r.tx ∈ s'.pkg.lostTx) ∧
    ∀ k j id, jobAt s k id = some j → jobAt s' k id = some (if crosses s n j then { j with cutOff := true } else j)) ∧
  (∀ n s, (16 ≤ n ∨ s.pkg.portsDown.contains n = true) → Gives (.aqueductPortFailure n) s s) ∧
  (∀ h cid line write s, (channelOf line).isSome = true → Gives (.cxlResponseTimeout h cid line write) s s) ∧
  (∀ h cid line s x, channelOf line = none → lineAt s h cid line = some x →
    s.due.contains (.memoryReplyAtHome h cid line) = true →
    let s0 := undue s (.memoryReplyAtHome h cid line)
    (x.filling = true →
      let s1 := markPoison (logExpander s0 h cid line [0, 1]) (line * 128) 128
      let got := fun (l : HomeLine) => { l with data := some (msPeek s cid line), filling := false, lost := goodWords s line }
      Gives (.cxlResponseTimeout h cid line false) s
        (settleLine (useWay (modLine s1 h cid line got) h (got x)) h cid line)) ∧
    (x.filling = false → x.memWait = true → Gives (.cxlResponseTimeout h cid line true) s
      (settleLine (modLine (unanswered s0 h cid line ((x.current.map writtenHalves).getD [0, 1])) h cid line fun l =>
        { l with memWait := false }) h cid line))) ∧
  (∀ h cid line s, channelOf line = none → s.due.contains (.memoryReplyAtHome h cid line) = false →
    (∀ e gs, awaitedWrite s cid line = some (e, gs) → Gives (.cxlResponseTimeout h cid line true) s
      (unanswered (undue s e) h cid line gs)) ∧
    (awaitedWrite s cid line = none → Gives (.cxlResponseTimeout h cid line true) s s) ∧
    (∀ g r bs bad, awaitedRead s h cid line = some (.expanderRead g r bs bad) → Gives (.cxlResponseTimeout h cid line false) s
      (answerExpander (logExpander (undue s (.expanderRead g r bs bad)) h cid line (halvesOf r.phys bs.length)) h r bs
        (List.range bs.length))) ∧
    (awaitedRead s h cid line = none → Gives (.cxlResponseTimeout h cid line false) s
      (logExpander s h cid line (plainReads s h cid line)))) ∧
  (∀ s h cid line gs, (∀ g ∈ gs, g < 2) → (∀ a, memByte (unanswered s h cid line gs).mem a = memByte s.mem a) ∧
    ∀ a n, 0 < n → poisoned (unanswered s h cid line gs) a n =
      (poisoned s a n || gs.any fun g => meets a n (line * 128 + 64 * g) 64)) ∧
  (∀ at_ bad s,
    (errorAt s at_ (if bad then 2 else 1) = none → execErrorFound at_ bad s = .next s) ∧
    (∀ e, bad = false → errorAt s at_ 1 = some e → execErrorFound at_ bad s = .next (logAt s e) ∧ (logAt s e).mem = s.mem ∧
      (logAt s e).threads = s.threads ∧ (logAt s e).poison = s.poison) ∧
    (∀ e, bad = true → errorAt s at_ 2 = some e →
      execErrorFound at_ bad s = .next (endByError (poisonAt (logAt s e) at_) at_))) ∧
  (∀ at_ s, (errorAt s at_ 2 = none ∨ unmetAt at_ = none ∨ (windowSlot s at_).isSome = true → execErrorHidden at_ s = .next s) ∧
    ∀ e u, errorAt s at_ 2 = some e → unmetAt at_ = some u → windowSlot s at_ = none →
      (poisoned s u 4 = true → execErrorHidden at_ s = .next s) ∧
      (poisoned s u 4 = false → ∃ s', execErrorHidden at_ s = .next s' ∧ s'.unlogged = s.unlogged ++ [u] ∧ poisoned s' u 4 = true ∧
        s'.mem = s.mem ∧ s'.threads = s.threads ∧ s'.dies = s.dies ∧ s'.pkg.ue = s.pkg.ue)) ∧
  (∀ str adr unit cid faulty repaired s,
    let test := s.pkg.tests.find? fun t => t.str == str && t.adr == adr && t.unit == unit && t.cid == cid
    let e := Instr.marchTestComplete str adr unit cid faulty repaired
    (test = none → Gives e s s) ∧
    (∀ t, test = some t →
      let s1 := modPkg s fun p => { p with tests := p.tests.erase t }
      (t.spare = true → faulty = true → Gives e s (logAt s1 (testRec 4 t))) ∧
      (t.spare = true → faulty = false → Gives e s (logAt
        (modPkg s1 fun p => { p with sparesUsed := put p.sparesUsed str (sparesOf s str - 1) }) (testRec 6 t))) ∧
      (t.spare = false → ∃ s', Gives e s s' ∧ WithoutSpare s1 t repaired s'))) ∧
  (∀ str adr clu cid s, execWayRetired str adr clu cid s = .next (logAt s (errorRec 5 str adr clu cid))) ∧
  (∀ s, Gives .reset s { State.reset with
    picks := s.picks, fresh := s.fresh,
    pkg := { Pkg.reset with phase := 1, measures := measured 0 Config.bootRom :: List.replicate 7 0 } }) ∧
  (∀ ctrl mm cal l0 l1 s, (s.pkg.phase ≠ 1 → Gives (.calibrationComplete ctrl mm cal l0 l1) s s) ∧
    (s.pkg.phase = 1 → accepted ctrl 0 = false → Gives (.calibrationComplete ctrl mm cal l0 l1) s
      (modPkg s fun p => { p with link0 := l0, link1 := l1.mode, hdm1 := l1.hdm, phase := 4 })) ∧
    (s.pkg.phase = 1 → accepted ctrl 0 = true → accepted mm 1 = false → Gives (.calibrationComplete ctrl mm cal l0 l1) s
      (modPkg s fun p => { p with
        link0 := l0, link1 := l1.mode, hdm1 := l1.hdm, phase := 4, measures := p.measures.set 1 (measured (p.measures.getD 1 0) ctrl.bytes) })) ∧
    (s.pkg.phase = 1 → accepted ctrl 0 = true → accepted mm 1 = true → ∃ s', Gives (.calibrationComplete ctrl mm cal l0 l1) s s' ∧
      s'.pkg.phase = 2 ∧ s'.pkg.ready = s.pkg.ready ∧ s'.pkg.versions = [ctrl.version, mm.version] ∧ s'.mem = s.mem ∧
      (s.pkg.measures.length = 8 →
        s'.pkg.measures.getD 1 0 = measured (s.pkg.measures.getD 1 0) ctrl.bytes ∧
        s'.pkg.measures.getD 2 0 = measured (s.pkg.measures.getD 2 0) mm.bytes ∧
        s'.pkg.measures.getD 3 0 = measured (s.pkg.measures.getD 3 0) cal))) ∧
  (∀ s, s.pkg.phase = 2 → ∃ s', Gives .memoryInitComplete s s' ∧ s'.pkg.ready = true ∧ s'.pkg.phase = 3 ∧
    ∀ a, memByte s'.mem a = if a < chipBase then memByte s.mem a else 0) ∧
  (∀ s, (s.pkg.phase = 2 ∨ s.pkg.phase = 3 → Gives .zeroingComplete s (modPkg s fun p => { p with zdone := true })) ∧
    (s.pkg.phase ≠ 2 → s.pkg.phase ≠ 3 → Gives .zeroingComplete s s)) ∧
  (∀ nonce s, s.pkg.phase = 4 → Gives (.attestationReport nonce) s s) ∧
  (∀ nonce s, s.pkg.phase ≠ 4 → ∃ r, Gives (.attestationReport nonce) s (modPkg s fun p => { p with report := some r }) ∧ r.nonce = nonce ∧
    r.serial = Config.deviceSerial ∧ r.measures = s.pkg.measures ∧ r.versions = s.pkg.versions ∧
    r.signature = signed (wordsOf 4 nonce.toNat ++ wordsOf 2 Config.deviceSerial.toNat ++
      s.pkg.measures.flatMap (fun m => wordsOf 8 m.toNat) ++ s.pkg.versions.map fun v => v.setWidth 64)) ∧
  (∀ s, Gives .powerLimit s (modPkg s fun p => { p with thr := true, clockSteps := Nat.min 15 (p.clockSteps + 1) })) ∧
  (∀ s, Gives .thermalShutdown s (modPkg (msFlush s fun _ => true) fun p => { p with stopped := true }) ∧
    (msFlush s fun _ => true).threads = s.threads ∧
    ∀ c ∈ (msFlush s fun _ => true).pkg.mside, ∀ x ∈ c.2, x.dirty = false)

/-- R396: once the package has stopped its clocks no step answers a next state but a reset's (that a reset starts it again is
the model's, log entry 1). -/
def Obligations.StoppedClocks : Prop :=
  ∀ s, s.pkg.stopped = true →
    (∀ s', Machine.step s = .next s' → ∃ ps, s.picks = .event .reset :: ps) ∧
    (s.picks.head? ≠ some (.event .reset) → Machine.step s = .fault .clocksStopped)

/-- R350, R354, R394: after reset and before start-up there is no partition, no thread, no launch; READY, PHASE, ZDONE, THR, DEG
and the UE count are 0; every byte of storage reads 0, and every core, slice and die is as unused. The values that the spec does
not give are the model's choice: storage that nothing has written (log entry 2), SEQ (log entry 4), the job and launch counters
and the core served last (log entry 5), the replacement bits and the ways of answer storage (log entry 6), MG.TBLAREA (log entry
7), the ports (log entry 8) and the measurement registers (log entry 9). -/
def Obligations.ResetState : Prop :=
  mgStat State.reset.pkg = 0 ∧ State.reset.parts = [] ∧ State.reset.threads = [] ∧ State.reset.saved = [] ∧
  State.reset.flotillas = [] ∧ State.reset.poison = [] ∧ State.reset.due = [] ∧ (∀ a, memByte State.reset.mem a = 0) ∧
  (∀ c, Machine.core State.reset c = Core.reset) ∧ (∀ k, cluster State.reset k = Cluster.reset ∧ (cluster State.reset k).cid = 0) ∧
  (∀ h, slice State.reset h = Slice.reset) ∧ (∀ d, die State.reset d = Die.reset)

/-- R394 and log entry 2: the storage after reset is in canonical form: nothing is listed. -/
def Obligations.StorageCanonicalAtReset : Prop := Memory.wf State.reset.mem = true

/-- R35, R403: every step keeps the storage in canonical form, addresses rising and no zero byte listed, so that equal contents
are equal data: for every state and every oracle. -/
def Obligations.StorageStaysCanonical : Prop :=
  ∀ s s', Memory.wf s.mem = true → Machine.step s = .next s' → Memory.wf s'.mem = true
end

