-- ==== Sys2Proof/Laws/Memory.lean ====
section
/-! SUPPORT. Sparse tables and storage: what is read after a write, and that every operation on storage keeps its
canonical form. -/

namespace Sys2Proof.Machine

/-! ### Sparse tables -/

@[simp] theorem find_put_same {α : Type} (m : NMap α) (k : Nat) (v : α) : find (put m k v) k = some v := by
  induction m with
  | nil => simp [put, find]
  | cons e m ih =>
    obtain ⟨j, u⟩ := e
    simp only [put]
    split
    · simp [find]
    · split
      · simp [find]
      · simp [find, *]

theorem find_put_other {α : Type} (m : NMap α) {k a : Nat} (v : α) (h : a ≠ k) : find (put m k v) a = find m a := by
  induction m with
  | nil => simp [put, find, Ne.symm h]
  | cons e m ih =>
    obtain ⟨j, u⟩ := e
    simp only [put]
    split
    · simp [find, Ne.symm h]
    · split
      · rename_i hj; subst hj; simp [find, Ne.symm h]
      · simp only [find, ih]

theorem find_del_other {α : Type} (m : NMap α) {k a : Nat} (h : a ≠ k) : find (del m k) a = find m a := by
  induction m with
  | nil => rfl
  | cons e m ih =>
    obtain ⟨j, u⟩ := e
    simp only [del]
    split
    · rename_i hj; subst hj; simp [find, Ne.symm h, ih]
    · simp only [find, ih]

/-- The keys of a table rise strictly. -/
def Rising {α : Type} (m : NMap α) : Prop := m.Pairwise fun x y => x.1 < y.1

theorem mem_put {α : Type} {m : NMap α} {k : Nat} {v : α} {e : Nat × α} (h : e ∈ put m k v) : e = (k, v) ∨ e ∈ m := by
  induction m with
  | nil => simpa [put] using h
  | cons e' m ih =>
    obtain ⟨j, u⟩ := e'
    simp only [put] at h
    split at h
    · simpa using h
    · split at h
      · rcases List.mem_cons.1 h with h | h
        · exact .inl h
        · exact .inr (List.mem_cons_of_mem _ h)
      · rcases List.mem_cons.1 h with h | h
        · exact .inr (by simp [h])
        · exact (ih h).imp_right (List.mem_cons_of_mem _)

theorem mem_del {α : Type} {m : NMap α} {k : Nat} {e : Nat × α} (h : e ∈ del m k) : e ∈ m := by
  induction m with
  | nil => exact h
  | cons e' m ih =>
    obtain ⟨j, u⟩ := e'
    simp only [del] at h
    split at h
    · exact List.mem_cons_of_mem _ (ih h)
    · rcases List.mem_cons.1 h with h | h
      · simp [h]
      · exact List.mem_cons_of_mem _ (ih h)

theorem rising_put {α : Type} {m : NMap α} (k : Nat) (v : α) (h : Rising m) : Rising (put m k v) := by
  induction m with
  | nil => simp [put, Rising]
  | cons e m ih =>
    obtain ⟨j, u⟩ := e
    obtain ⟨h1, h2⟩ := List.pairwise_cons.1 h
    simp only [put]
    split
    · rename_i hk
      refine List.pairwise_cons.2 ⟨fun e he => ?_, h⟩
      rcases List.mem_cons.1 he with rfl | he
      · exact hk
      · exact Nat.lt_trans hk (h1 e he)
    · split
      · rename_i hk; subst hk; exact List.pairwise_cons.2 ⟨h1, h2⟩
      · refine List.pairwise_cons.2 ⟨fun e he => ?_, ih h2⟩
        rcases mem_put he with rfl | he
        · show j < k; omega
        · exact h1 e he

theorem rising_del {α : Type} {m : NMap α} (k : Nat) (h : Rising m) : Rising (del m k) := by
  induction m with
  | nil => exact h
  | cons e m ih =>
    obtain ⟨j, u⟩ := e
    obtain ⟨h1, h2⟩ := List.pairwise_cons.1 h
    simp only [del]
    split
    · exact ih h2
    · exact List.pairwise_cons.2 ⟨fun e he => h1 e (mem_del he), ih h2⟩

@[simp] theorem find_del_same {α : Type} (m : NMap α) (k : Nat) : find (del m k) k = none := by
  induction m with
  | nil => rfl
  | cons e m ih =>
    obtain ⟨j, u⟩ := e
    simp only [del]
    split
    · exact ih
    · rename_i hj; simp [find, hj, ih]

/-! ### Storage -/

/-- The canonical form, said with quantifiers. -/
theorem wf_iff {m : Memory} : Memory.wf m = true ↔ Rising m ∧ ∀ e ∈ m, e.2 ≠ 0 := by
  induction m with
  | nil => simp [Memory.wf, Rising]
  | cons e m ih =>
    obtain ⟨a, b⟩ := e
    cases m with
    | nil => simp [Memory.wf, Rising]
    | cons e' m =>
      obtain ⟨a', b'⟩ := e'
      simp only [Memory.wf, Bool.and_eq_true, ih, Rising, bne_iff_ne, decide_eq_true_eq] at *
      constructor
      · rintro ⟨⟨h1, h2⟩, h3, h4⟩
        refine ⟨List.pairwise_cons.2 ⟨fun e he => ?_, h3⟩, fun e he => ?_⟩
        · rcases List.mem_cons.1 he with rfl | he
          · exact h2
          · exact Nat.lt_trans h2 ((List.pairwise_cons.1 h3).1 e he)
        · rcases List.mem_cons.1 he with rfl | he
          · exact h1
          · exact h4 e he
      · rintro ⟨h1, h2⟩
        obtain ⟨h3, h4⟩ := List.pairwise_cons.1 h1
        exact ⟨⟨h2 (a, b) (by simp), h3 (a', b') (by simp)⟩, h4, fun e he => h2 e (List.mem_cons_of_mem _ he)⟩

theorem wf_setByte {m : Memory} (a : Nat) (b : Byte) (h : Memory.wf m = true) : Memory.wf (setByte m a b) = true := by
  obtain ⟨h1, h2⟩ := wf_iff.1 h
  rw [setByte]
  split
  · exact wf_iff.2 ⟨rising_del a h1, fun e he => h2 e (mem_del he)⟩
  · rename_i hb
    refine wf_iff.2 ⟨rising_put a b h1, fun e he => ?_⟩
    rcases mem_put he with rfl | he
    · exact hb
    · exact h2 e he

theorem wf_writeBytes {m : Memory} (a : Nat) (bs : List Byte) (h : Memory.wf m = true) :
    Memory.wf (writeBytes m a bs) = true := by
  induction bs generalizing m a with
  | nil => exact h
  | cons b bs ih => exact ih _ (wf_setByte a b h)

theorem wf_writeCells {m : Memory} (cs : List (Nat × Byte)) (h : Memory.wf m = true) :
    Memory.wf (writeCells m cs) = true := by
  induction cs generalizing m with
  | nil => exact h
  | cons c cs ih => exact ih (wf_setByte c.1 c.2 h)

theorem wf_filter {m : Memory} (p : Host.Cell → Bool) (h : Memory.wf m = true) : Memory.wf (m.filter p) = true := by
  obtain ⟨h1, h2⟩ := wf_iff.1 h
  exact wf_iff.2 ⟨List.Pairwise.filter _ h1, fun e he => h2 e (List.mem_filter.1 he).1⟩

/-- Storage after reset is in canonical form. -/
theorem wf_reset : Memory.wf State.reset.mem = true := rfl

/-- A byte reads as it was last written. -/
@[simp] theorem memByte_setByte_same (m : Memory) (a : Nat) (b : Byte) : memByte (setByte m a b) a = b := by
  rw [setByte]
  split
  · rename_i hb; simp [memByte, hb]
  · simp [memByte]

/-- Writing a byte leaves every other byte alone. -/
theorem memByte_setByte_other (m : Memory) {a x : Nat} (b : Byte) (h : x ≠ a) :
    memByte (setByte m a b) x = memByte m x := by
  rw [setByte]
  split
  · simp [memByte, find_del_other m h]
  · simp [memByte, find_put_other m b h]

/-- Writing consecutive bytes leaves every byte outside them alone. -/
theorem memByte_writeBytes_outside (m : Memory) (a x : Nat) (bs : List Byte) (h : x < a ∨ a + bs.length ≤ x) :
    memByte (writeBytes m a bs) x = memByte m x := by
  induction bs generalizing m a with
  | nil => rfl
  | cons b bs ih =>
    simp only [List.length_cons] at h
    rw [writeBytes, ih _ (a + 1) (by omega), memByte_setByte_other m b (by omega)]

/-- Consecutive bytes read as they were written. -/
theorem memByte_writeBytes_inside (m : Memory) (a i : Nat) (bs : List Byte) (hi : i < bs.length) :
    memByte (writeBytes m a bs) (a + i) = bs[i] := by
  induction bs generalizing m a i with
  | nil => simp at hi
  | cons b bs ih =>
    cases i with
    | zero =>
      rw [writeBytes, memByte_writeBytes_outside _ _ _ _ (by omega)]
      simp
    | succ i =>
      rw [writeBytes]
      have := ih (m := setByte m a b) (a + 1) i (by simpa using hi)
      simpa [Nat.add_assoc, Nat.add_comm 1 i] using this

end Sys2Proof.Machine
end

