-- ==== Sys2Proof/Laws/State.lean ====
section
/-! SUPPORT. What each plain update of the state does to each field: one lemma per field and update, by definition. -/

namespace Sys2Proof.Machine

variable (s : State)

/-! ### setThr -/

@[simp] theorem setThr_mem (k : Nat) (t : Thread) : (setThr s k t).mem = s.mem := rfl
@[simp] theorem setThr_poison (k : Nat) (t : Thread) : (setThr s k t).poison = s.poison := rfl
@[simp] theorem setThr_threads (k : Nat) (t : Thread) : (setThr s k t).threads = put s.threads k t := rfl
@[simp] theorem setThr_cores (k : Nat) (t : Thread) : (setThr s k t).cores = s.cores := rfl
@[simp] theorem setThr_clusters (k : Nat) (t : Thread) : (setThr s k t).clusters = s.clusters := rfl
@[simp] theorem setThr_slices (k : Nat) (t : Thread) : (setThr s k t).slices = s.slices := rfl
@[simp] theorem setThr_dies (k : Nat) (t : Thread) : (setThr s k t).dies = s.dies := rfl
@[simp] theorem setThr_parts (k : Nat) (t : Thread) : (setThr s k t).parts = s.parts := rfl
@[simp] theorem setThr_flotillas (k : Nat) (t : Thread) : (setThr s k t).flotillas = s.flotillas := rfl
@[simp] theorem setThr_nextFlotilla (k : Nat) (t : Thread) : (setThr s k t).nextFlotilla = s.nextFlotilla := rfl
@[simp] theorem setThr_saved (k : Nat) (t : Thread) : (setThr s k t).saved = s.saved := rfl
@[simp] theorem setThr_pkg (k : Nat) (t : Thread) : (setThr s k t).pkg = s.pkg := rfl
@[simp] theorem setThr_cur (k : Nat) (t : Thread) : (setThr s k t).cur = s.cur := rfl
@[simp] theorem setThr_exHalf (k : Nat) (t : Thread) : (setThr s k t).exHalf = s.exHalf := rfl
@[simp] theorem setThr_turns (k : Nat) (t : Thread) : (setThr s k t).turns = s.turns := rfl
@[simp] theorem setThr_picks (k : Nat) (t : Thread) : (setThr s k t).picks = s.picks := rfl
@[simp] theorem setThr_due (k : Nat) (t : Thread) : (setThr s k t).due = s.due := rfl
@[simp] theorem setThr_timers (k : Nat) (t : Thread) : (setThr s k t).timers = s.timers := rfl
@[simp] theorem setThr_nextTx (k : Nat) (t : Thread) : (setThr s k t).nextTx = s.nextTx := rfl
@[simp] theorem setThr_fresh (k : Nat) (t : Thread) : (setThr s k t).fresh = s.fresh := rfl
@[simp] theorem setThr_unlogged (k : Nat) (t : Thread) : (setThr s k t).unlogged = s.unlogged := rfl

/-! ### delThr -/

@[simp] theorem delThr_mem (k : Nat) : (delThr s k).mem = s.mem := rfl
@[simp] theorem delThr_poison (k : Nat) : (delThr s k).poison = s.poison := rfl
@[simp] theorem delThr_threads (k : Nat) : (delThr s k).threads = del s.threads k := rfl
@[simp] theorem delThr_cores (k : Nat) : (delThr s k).cores = s.cores := rfl
@[simp] theorem delThr_clusters (k : Nat) : (delThr s k).clusters = s.clusters := rfl
@[simp] theorem delThr_slices (k : Nat) : (delThr s k).slices = s.slices := rfl
@[simp] theorem delThr_dies (k : Nat) : (delThr s k).dies = s.dies := rfl
@[simp] theorem delThr_parts (k : Nat) : (delThr s k).parts = s.parts := rfl
@[simp] theorem delThr_flotillas (k : Nat) : (delThr s k).flotillas = s.flotillas := rfl
@[simp] theorem delThr_nextFlotilla (k : Nat) : (delThr s k).nextFlotilla = s.nextFlotilla := rfl
@[simp] theorem delThr_saved (k : Nat) : (delThr s k).saved = s.saved := rfl
@[simp] theorem delThr_pkg (k : Nat) : (delThr s k).pkg = s.pkg := rfl
@[simp] theorem delThr_cur (k : Nat) : (delThr s k).cur = s.cur := rfl
@[simp] theorem delThr_exHalf (k : Nat) : (delThr s k).exHalf = s.exHalf := rfl
@[simp] theorem delThr_turns (k : Nat) : (delThr s k).turns = s.turns := rfl
@[simp] theorem delThr_picks (k : Nat) : (delThr s k).picks = s.picks := rfl
@[simp] theorem delThr_due (k : Nat) : (delThr s k).due = s.due := rfl
@[simp] theorem delThr_timers (k : Nat) : (delThr s k).timers = s.timers := rfl
@[simp] theorem delThr_nextTx (k : Nat) : (delThr s k).nextTx = s.nextTx := rfl
@[simp] theorem delThr_fresh (k : Nat) : (delThr s k).fresh = s.fresh := rfl
@[simp] theorem delThr_unlogged (k : Nat) : (delThr s k).unlogged = s.unlogged := rfl

/-! ### modCore -/

@[simp] theorem modCore_mem (k : Nat) (f : Core → Core) : (modCore s k f).mem = s.mem := rfl
@[simp] theorem modCore_poison (k : Nat) (f : Core → Core) : (modCore s k f).poison = s.poison := rfl
@[simp] theorem modCore_threads (k : Nat) (f : Core → Core) : (modCore s k f).threads = s.threads := rfl
@[simp] theorem modCore_cores (k : Nat) (f : Core → Core) : (modCore s k f).cores = put s.cores k (f (core s k)) := rfl
@[simp] theorem modCore_clusters (k : Nat) (f : Core → Core) : (modCore s k f).clusters = s.clusters := rfl
@[simp] theorem modCore_slices (k : Nat) (f : Core → Core) : (modCore s k f).slices = s.slices := rfl
@[simp] theorem modCore_dies (k : Nat) (f : Core → Core) : (modCore s k f).dies = s.dies := rfl
@[simp] theorem modCore_parts (k : Nat) (f : Core → Core) : (modCore s k f).parts = s.parts := rfl
@[simp] theorem modCore_flotillas (k : Nat) (f : Core → Core) : (modCore s k f).flotillas = s.flotillas := rfl
@[simp] theorem modCore_nextFlotilla (k : Nat) (f : Core → Core) : (modCore s k f).nextFlotilla = s.nextFlotilla := rfl
@[simp] theorem modCore_saved (k : Nat) (f : Core → Core) : (modCore s k f).saved = s.saved := rfl
@[simp] theorem modCore_pkg (k : Nat) (f : Core → Core) : (modCore s k f).pkg = s.pkg := rfl
@[simp] theorem modCore_cur (k : Nat) (f : Core → Core) : (modCore s k f).cur = s.cur := rfl
@[simp] theorem modCore_exHalf (k : Nat) (f : Core → Core) : (modCore s k f).exHalf = s.exHalf := rfl
@[simp] theorem modCore_turns (k : Nat) (f : Core → Core) : (modCore s k f).turns = s.turns := rfl
@[simp] theorem modCore_picks (k : Nat) (f : Core → Core) : (modCore s k f).picks = s.picks := rfl
@[simp] theorem modCore_due (k : Nat) (f : Core → Core) : (modCore s k f).due = s.due := rfl
@[simp] theorem modCore_timers (k : Nat) (f : Core → Core) : (modCore s k f).timers = s.timers := rfl
@[simp] theorem modCore_nextTx (k : Nat) (f : Core → Core) : (modCore s k f).nextTx = s.nextTx := rfl
@[simp] theorem modCore_fresh (k : Nat) (f : Core → Core) : (modCore s k f).fresh = s.fresh := rfl
@[simp] theorem modCore_unlogged (k : Nat) (f : Core → Core) : (modCore s k f).unlogged = s.unlogged := rfl

/-! ### modCluster -/

@[simp] theorem modCluster_mem (k : Nat) (f : Cluster → Cluster) : (modCluster s k f).mem = s.mem := rfl
@[simp] theorem modCluster_poison (k : Nat) (f : Cluster → Cluster) : (modCluster s k f).poison = s.poison := rfl
@[simp] theorem modCluster_threads (k : Nat) (f : Cluster → Cluster) : (modCluster s k f).threads = s.threads := rfl
@[simp] theorem modCluster_cores (k : Nat) (f : Cluster → Cluster) : (modCluster s k f).cores = s.cores := rfl
@[simp] theorem modCluster_clusters (k : Nat) (f : Cluster → Cluster) : (modCluster s k f).clusters = put s.clusters k (f (cluster s k)) := rfl
@[simp] theorem modCluster_slices (k : Nat) (f : Cluster → Cluster) : (modCluster s k f).slices = s.slices := rfl
@[simp] theorem modCluster_dies (k : Nat) (f : Cluster → Cluster) : (modCluster s k f).dies = s.dies := rfl
@[simp] theorem modCluster_parts (k : Nat) (f : Cluster → Cluster) : (modCluster s k f).parts = s.parts := rfl
@[simp] theorem modCluster_flotillas (k : Nat) (f : Cluster → Cluster) : (modCluster s k f).flotillas = s.flotillas := rfl
@[simp] theorem modCluster_nextFlotilla (k : Nat) (f : Cluster → Cluster) : (modCluster s k f).nextFlotilla = s.nextFlotilla := rfl
@[simp] theorem modCluster_saved (k : Nat) (f : Cluster → Cluster) : (modCluster s k f).saved = s.saved := rfl
@[simp] theorem modCluster_pkg (k : Nat) (f : Cluster → Cluster) : (modCluster s k f).pkg = s.pkg := rfl
@[simp] theorem modCluster_cur (k : Nat) (f : Cluster → Cluster) : (modCluster s k f).cur = s.cur := rfl
@[simp] theorem modCluster_exHalf (k : Nat) (f : Cluster → Cluster) : (modCluster s k f).exHalf = s.exHalf := rfl
@[simp] theorem modCluster_turns (k : Nat) (f : Cluster → Cluster) : (modCluster s k f).turns = s.turns := rfl
@[simp] theorem modCluster_picks (k : Nat) (f : Cluster → Cluster) : (modCluster s k f).picks = s.picks := rfl
@[simp] theorem modCluster_due (k : Nat) (f : Cluster → Cluster) : (modCluster s k f).due = s.due := rfl
@[simp] theorem modCluster_timers (k : Nat) (f : Cluster → Cluster) : (modCluster s k f).timers = s.timers := rfl
@[simp] theorem modCluster_nextTx (k : Nat) (f : Cluster → Cluster) : (modCluster s k f).nextTx = s.nextTx := rfl
@[simp] theorem modCluster_fresh (k : Nat) (f : Cluster → Cluster) : (modCluster s k f).fresh = s.fresh := rfl
@[simp] theorem modCluster_unlogged (k : Nat) (f : Cluster → Cluster) : (modCluster s k f).unlogged = s.unlogged := rfl

/-! ### modSlice -/

@[simp] theorem modSlice_mem (k : Nat) (f : Slice → Slice) : (modSlice s k f).mem = s.mem := rfl
@[simp] theorem modSlice_poison (k : Nat) (f : Slice → Slice) : (modSlice s k f).poison = s.poison := rfl
@[simp] theorem modSlice_threads (k : Nat) (f : Slice → Slice) : (modSlice s k f).threads = s.threads := rfl
@[simp] theorem modSlice_cores (k : Nat) (f : Slice → Slice) : (modSlice s k f).cores = s.cores := rfl
@[simp] theorem modSlice_clusters (k : Nat) (f : Slice → Slice) : (modSlice s k f).clusters = s.clusters := rfl
@[simp] theorem modSlice_slices (k : Nat) (f : Slice → Slice) : (modSlice s k f).slices = put s.slices k (f (slice s k)) := rfl
@[simp] theorem modSlice_dies (k : Nat) (f : Slice → Slice) : (modSlice s k f).dies = s.dies := rfl
@[simp] theorem modSlice_parts (k : Nat) (f : Slice → Slice) : (modSlice s k f).parts = s.parts := rfl
@[simp] theorem modSlice_flotillas (k : Nat) (f : Slice → Slice) : (modSlice s k f).flotillas = s.flotillas := rfl
@[simp] theorem modSlice_nextFlotilla (k : Nat) (f : Slice → Slice) : (modSlice s k f).nextFlotilla = s.nextFlotilla := rfl
@[simp] theorem modSlice_saved (k : Nat) (f : Slice → Slice) : (modSlice s k f).saved = s.saved := rfl
@[simp] theorem modSlice_pkg (k : Nat) (f : Slice → Slice) : (modSlice s k f).pkg = s.pkg := rfl
@[simp] theorem modSlice_cur (k : Nat) (f : Slice → Slice) : (modSlice s k f).cur = s.cur := rfl
@[simp] theorem modSlice_exHalf (k : Nat) (f : Slice → Slice) : (modSlice s k f).exHalf = s.exHalf := rfl
@[simp] theorem modSlice_turns (k : Nat) (f : Slice → Slice) : (modSlice s k f).turns = s.turns := rfl
@[simp] theorem modSlice_picks (k : Nat) (f : Slice → Slice) : (modSlice s k f).picks = s.picks := rfl
@[simp] theorem modSlice_due (k : Nat) (f : Slice → Slice) : (modSlice s k f).due = s.due := rfl
@[simp] theorem modSlice_timers (k : Nat) (f : Slice → Slice) : (modSlice s k f).timers = s.timers := rfl
@[simp] theorem modSlice_nextTx (k : Nat) (f : Slice → Slice) : (modSlice s k f).nextTx = s.nextTx := rfl
@[simp] theorem modSlice_fresh (k : Nat) (f : Slice → Slice) : (modSlice s k f).fresh = s.fresh := rfl
@[simp] theorem modSlice_unlogged (k : Nat) (f : Slice → Slice) : (modSlice s k f).unlogged = s.unlogged := rfl

/-! ### modDie -/

@[simp] theorem modDie_mem (k : Nat) (f : Die → Die) : (modDie s k f).mem = s.mem := rfl
@[simp] theorem modDie_poison (k : Nat) (f : Die → Die) : (modDie s k f).poison = s.poison := rfl
@[simp] theorem modDie_threads (k : Nat) (f : Die → Die) : (modDie s k f).threads = s.threads := rfl
@[simp] theorem modDie_cores (k : Nat) (f : Die → Die) : (modDie s k f).cores = s.cores := rfl
@[simp] theorem modDie_clusters (k : Nat) (f : Die → Die) : (modDie s k f).clusters = s.clusters := rfl
@[simp] theorem modDie_slices (k : Nat) (f : Die → Die) : (modDie s k f).slices = s.slices := rfl
@[simp] theorem modDie_dies (k : Nat) (f : Die → Die) : (modDie s k f).dies = put s.dies k (f (die s k)) := rfl
@[simp] theorem modDie_parts (k : Nat) (f : Die → Die) : (modDie s k f).parts = s.parts := rfl
@[simp] theorem modDie_flotillas (k : Nat) (f : Die → Die) : (modDie s k f).flotillas = s.flotillas := rfl
@[simp] theorem modDie_nextFlotilla (k : Nat) (f : Die → Die) : (modDie s k f).nextFlotilla = s.nextFlotilla := rfl
@[simp] theorem modDie_saved (k : Nat) (f : Die → Die) : (modDie s k f).saved = s.saved := rfl
@[simp] theorem modDie_pkg (k : Nat) (f : Die → Die) : (modDie s k f).pkg = s.pkg := rfl
@[simp] theorem modDie_cur (k : Nat) (f : Die → Die) : (modDie s k f).cur = s.cur := rfl
@[simp] theorem modDie_exHalf (k : Nat) (f : Die → Die) : (modDie s k f).exHalf = s.exHalf := rfl
@[simp] theorem modDie_turns (k : Nat) (f : Die → Die) : (modDie s k f).turns = s.turns := rfl
@[simp] theorem modDie_picks (k : Nat) (f : Die → Die) : (modDie s k f).picks = s.picks := rfl
@[simp] theorem modDie_due (k : Nat) (f : Die → Die) : (modDie s k f).due = s.due := rfl
@[simp] theorem modDie_timers (k : Nat) (f : Die → Die) : (modDie s k f).timers = s.timers := rfl
@[simp] theorem modDie_nextTx (k : Nat) (f : Die → Die) : (modDie s k f).nextTx = s.nextTx := rfl
@[simp] theorem modDie_fresh (k : Nat) (f : Die → Die) : (modDie s k f).fresh = s.fresh := rfl
@[simp] theorem modDie_unlogged (k : Nat) (f : Die → Die) : (modDie s k f).unlogged = s.unlogged := rfl

/-! ### modPkg -/

@[simp] theorem modPkg_mem (f : Pkg → Pkg) : (modPkg s f).mem = s.mem := rfl
@[simp] theorem modPkg_poison (f : Pkg → Pkg) : (modPkg s f).poison = s.poison := rfl
@[simp] theorem modPkg_threads (f : Pkg → Pkg) : (modPkg s f).threads = s.threads := rfl
@[simp] theorem modPkg_cores (f : Pkg → Pkg) : (modPkg s f).cores = s.cores := rfl
@[simp] theorem modPkg_clusters (f : Pkg → Pkg) : (modPkg s f).clusters = s.clusters := rfl
@[simp] theorem modPkg_slices (f : Pkg → Pkg) : (modPkg s f).slices = s.slices := rfl
@[simp] theorem modPkg_dies (f : Pkg → Pkg) : (modPkg s f).dies = s.dies := rfl
@[simp] theorem modPkg_parts (f : Pkg → Pkg) : (modPkg s f).parts = s.parts := rfl
@[simp] theorem modPkg_flotillas (f : Pkg → Pkg) : (modPkg s f).flotillas = s.flotillas := rfl
@[simp] theorem modPkg_nextFlotilla (f : Pkg → Pkg) : (modPkg s f).nextFlotilla = s.nextFlotilla := rfl
@[simp] theorem modPkg_saved (f : Pkg → Pkg) : (modPkg s f).saved = s.saved := rfl
@[simp] theorem modPkg_pkg (f : Pkg → Pkg) : (modPkg s f).pkg = f s.pkg := rfl
@[simp] theorem modPkg_cur (f : Pkg → Pkg) : (modPkg s f).cur = s.cur := rfl
@[simp] theorem modPkg_exHalf (f : Pkg → Pkg) : (modPkg s f).exHalf = s.exHalf := rfl
@[simp] theorem modPkg_turns (f : Pkg → Pkg) : (modPkg s f).turns = s.turns := rfl
@[simp] theorem modPkg_picks (f : Pkg → Pkg) : (modPkg s f).picks = s.picks := rfl
@[simp] theorem modPkg_due (f : Pkg → Pkg) : (modPkg s f).due = s.due := rfl
@[simp] theorem modPkg_timers (f : Pkg → Pkg) : (modPkg s f).timers = s.timers := rfl
@[simp] theorem modPkg_nextTx (f : Pkg → Pkg) : (modPkg s f).nextTx = s.nextTx := rfl
@[simp] theorem modPkg_fresh (f : Pkg → Pkg) : (modPkg s f).fresh = s.fresh := rfl
@[simp] theorem modPkg_unlogged (f : Pkg → Pkg) : (modPkg s f).unlogged = s.unlogged := rfl

/-! ### post -/

@[simp] theorem post_mem (e : Event) : (post s e).mem = s.mem := rfl
@[simp] theorem post_poison (e : Event) : (post s e).poison = s.poison := rfl
@[simp] theorem post_threads (e : Event) : (post s e).threads = s.threads := rfl
@[simp] theorem post_cores (e : Event) : (post s e).cores = s.cores := rfl
@[simp] theorem post_clusters (e : Event) : (post s e).clusters = s.clusters := rfl
@[simp] theorem post_slices (e : Event) : (post s e).slices = s.slices := rfl
@[simp] theorem post_dies (e : Event) : (post s e).dies = s.dies := rfl
@[simp] theorem post_parts (e : Event) : (post s e).parts = s.parts := rfl
@[simp] theorem post_flotillas (e : Event) : (post s e).flotillas = s.flotillas := rfl
@[simp] theorem post_nextFlotilla (e : Event) : (post s e).nextFlotilla = s.nextFlotilla := rfl
@[simp] theorem post_saved (e : Event) : (post s e).saved = s.saved := rfl
@[simp] theorem post_pkg (e : Event) : (post s e).pkg = s.pkg := rfl
@[simp] theorem post_cur (e : Event) : (post s e).cur = s.cur := rfl
@[simp] theorem post_exHalf (e : Event) : (post s e).exHalf = s.exHalf := rfl
@[simp] theorem post_turns (e : Event) : (post s e).turns = s.turns := rfl
@[simp] theorem post_picks (e : Event) : (post s e).picks = s.picks := rfl
@[simp] theorem post_due (e : Event) : (post s e).due = s.due ++ [e] := rfl
@[simp] theorem post_timers (e : Event) : (post s e).timers = s.timers := rfl
@[simp] theorem post_nextTx (e : Event) : (post s e).nextTx = s.nextTx := rfl
@[simp] theorem post_fresh (e : Event) : (post s e).fresh = s.fresh := rfl
@[simp] theorem post_unlogged (e : Event) : (post s e).unlogged = s.unlogged := rfl

/-! ### postAll -/

@[simp] theorem postAll_mem (es : List Event) : (postAll s es).mem = s.mem := rfl
@[simp] theorem postAll_poison (es : List Event) : (postAll s es).poison = s.poison := rfl
@[simp] theorem postAll_threads (es : List Event) : (postAll s es).threads = s.threads := rfl
@[simp] theorem postAll_cores (es : List Event) : (postAll s es).cores = s.cores := rfl
@[simp] theorem postAll_clusters (es : List Event) : (postAll s es).clusters = s.clusters := rfl
@[simp] theorem postAll_slices (es : List Event) : (postAll s es).slices = s.slices := rfl
@[simp] theorem postAll_dies (es : List Event) : (postAll s es).dies = s.dies := rfl
@[simp] theorem postAll_parts (es : List Event) : (postAll s es).parts = s.parts := rfl
@[simp] theorem postAll_flotillas (es : List Event) : (postAll s es).flotillas = s.flotillas := rfl
@[simp] theorem postAll_nextFlotilla (es : List Event) : (postAll s es).nextFlotilla = s.nextFlotilla := rfl
@[simp] theorem postAll_saved (es : List Event) : (postAll s es).saved = s.saved := rfl
@[simp] theorem postAll_pkg (es : List Event) : (postAll s es).pkg = s.pkg := rfl
@[simp] theorem postAll_cur (es : List Event) : (postAll s es).cur = s.cur := rfl
@[simp] theorem postAll_exHalf (es : List Event) : (postAll s es).exHalf = s.exHalf := rfl
@[simp] theorem postAll_turns (es : List Event) : (postAll s es).turns = s.turns := rfl
@[simp] theorem postAll_picks (es : List Event) : (postAll s es).picks = s.picks := rfl
@[simp] theorem postAll_due (es : List Event) : (postAll s es).due = s.due ++ es := rfl
@[simp] theorem postAll_timers (es : List Event) : (postAll s es).timers = s.timers := rfl
@[simp] theorem postAll_nextTx (es : List Event) : (postAll s es).nextTx = s.nextTx := rfl
@[simp] theorem postAll_fresh (es : List Event) : (postAll s es).fresh = s.fresh := rfl
@[simp] theorem postAll_unlogged (es : List Event) : (postAll s es).unlogged = s.unlogged := rfl

/-! ### dropTimer -/

@[simp] theorem dropTimer_mem (e : Event) : (dropTimer s e).mem = s.mem := rfl
@[simp] theorem dropTimer_poison (e : Event) : (dropTimer s e).poison = s.poison := rfl
@[simp] theorem dropTimer_threads (e : Event) : (dropTimer s e).threads = s.threads := rfl
@[simp] theorem dropTimer_cores (e : Event) : (dropTimer s e).cores = s.cores := rfl
@[simp] theorem dropTimer_clusters (e : Event) : (dropTimer s e).clusters = s.clusters := rfl
@[simp] theorem dropTimer_slices (e : Event) : (dropTimer s e).slices = s.slices := rfl
@[simp] theorem dropTimer_dies (e : Event) : (dropTimer s e).dies = s.dies := rfl
@[simp] theorem dropTimer_parts (e : Event) : (dropTimer s e).parts = s.parts := rfl
@[simp] theorem dropTimer_flotillas (e : Event) : (dropTimer s e).flotillas = s.flotillas := rfl
@[simp] theorem dropTimer_nextFlotilla (e : Event) : (dropTimer s e).nextFlotilla = s.nextFlotilla := rfl
@[simp] theorem dropTimer_saved (e : Event) : (dropTimer s e).saved = s.saved := rfl
@[simp] theorem dropTimer_pkg (e : Event) : (dropTimer s e).pkg = s.pkg := rfl
@[simp] theorem dropTimer_cur (e : Event) : (dropTimer s e).cur = s.cur := rfl
@[simp] theorem dropTimer_exHalf (e : Event) : (dropTimer s e).exHalf = s.exHalf := rfl
@[simp] theorem dropTimer_turns (e : Event) : (dropTimer s e).turns = s.turns := rfl
@[simp] theorem dropTimer_picks (e : Event) : (dropTimer s e).picks = s.picks := rfl
@[simp] theorem dropTimer_due (e : Event) : (dropTimer s e).due = s.due := rfl
@[simp] theorem dropTimer_timers (e : Event) : (dropTimer s e).timers = s.timers.filter fun x => x != e := rfl
@[simp] theorem dropTimer_nextTx (e : Event) : (dropTimer s e).nextTx = s.nextTx := rfl
@[simp] theorem dropTimer_fresh (e : Event) : (dropTimer s e).fresh = s.fresh := rfl
@[simp] theorem dropTimer_unlogged (e : Event) : (dropTimer s e).unlogged = s.unlogged := rfl

/-! ### tick -/

@[simp] theorem tick_mem : (tick s).mem = s.mem := rfl
@[simp] theorem tick_poison : (tick s).poison = s.poison := rfl
@[simp] theorem tick_threads : (tick s).threads = s.threads := rfl
@[simp] theorem tick_cores : (tick s).cores = s.cores := rfl
@[simp] theorem tick_clusters : (tick s).clusters = s.clusters := rfl
@[simp] theorem tick_slices : (tick s).slices = s.slices := rfl
@[simp] theorem tick_dies : (tick s).dies = s.dies := rfl
@[simp] theorem tick_parts : (tick s).parts = s.parts := rfl
@[simp] theorem tick_flotillas : (tick s).flotillas = s.flotillas := rfl
@[simp] theorem tick_nextFlotilla : (tick s).nextFlotilla = s.nextFlotilla := rfl
@[simp] theorem tick_saved : (tick s).saved = s.saved := rfl
@[simp] theorem tick_pkg : (tick s).pkg = s.pkg := rfl
@[simp] theorem tick_cur : (tick s).cur = s.cur := rfl
@[simp] theorem tick_exHalf : (tick s).exHalf = s.exHalf := rfl
@[simp] theorem tick_turns : (tick s).turns = s.turns := rfl
@[simp] theorem tick_picks : (tick s).picks = s.picks := rfl
@[simp] theorem tick_due : (tick s).due = s.due := rfl
@[simp] theorem tick_timers : (tick s).timers = s.timers := rfl
@[simp] theorem tick_nextTx : (tick s).nextTx = s.nextTx + 1 := rfl
@[simp] theorem tick_fresh : (tick s).fresh = s.fresh := rfl
@[simp] theorem tick_unlogged : (tick s).unlogged = s.unlogged := rfl

end Sys2Proof.Machine
end

