-- ==== Sys2Proof/Laws/Ops.lean ====
section
/-! SUPPORT. What the named operations do, said once: an instruction's effect run part by part, what issuing answers, and
the reads, checks and gates that pass. -/

namespace Sys2Proof.Machine

variable {α β : Type} {s s1 : State} {t : Thread}

/-! ### Running an effect part by part -/

theorem Act.bind_ok {m : Act α} {f : α → Act β} {x : α} (h : m s = .ok (x, s1)) : (m >>= f) s = f x s1 := by
  simp only [bind, StateT.bind, Except.bind, h]

theorem Act.bind_error {m : Act α} {f : α → Act β} {e : Stop} (h : m s = .error e) : (m >>= f) s = .error e := by
  simp only [bind, StateT.bind, Except.bind, h]

theorem Act.pure_ok (x : α) : (pure x : Act α) s = .ok (x, s) := rfl
theorem Act.get_ok : (get : Act State) s = .ok (s, s) := rfl
theorem Act.set_ok (s' : State) : (set s' : Act PUnit) s = .ok (PUnit.unit, s') := rfl
theorem Act.modify_ok (f : State → State) : (modify f : Act PUnit) s = .ok (PUnit.unit, f s) := rfl
theorem me_ok : me s = .ok (self s, s) := rfl
theorem setMe_ok (f : Thread → Thread) : setMe f s = .ok ((), modSelf s f) := rfl
theorem trap_error (c : Nat) (v : Word) : (trap c v : Act α) s = .error (.trap c v 0) := rfl
theorem waitOn_error (w : Wait) (f : State → State) : (waitOn w f : Act α) s = .error (.wait w fun s0 => keepNote s (f s0)) := rfl
theorem hold_error : (hold : Act α) s = .error (.wait .retry (keepNote s)) := rfl
theorem holdWith_error (f : State → State) : (holdWith f : Act α) s = .error (.wait .retry fun s0 => keepNote s (f s0)) := rfl
theorem throw_error (e : Stop) : (throw e : Act α) s = .error e := rfl
theorem inside_ok (w : Wait) : inside w s = .ok (.stay, waitIn s s.cur w) := rfl
theorem group_ok (r : Reg) (n : Nat) : group r n s = .ok ((List.range n).map fun i => (self s).regs.getD (r.toNat + i) 0, s) := rfl
theorem setGroupRegs_ok (r : Reg) (vs : List Word) :
    setGroupRegs r vs s = .ok ((), modSelf s fun t => wrRegs t (vs.zipIdx.map fun p => (r.toNat + p.2, p.1))) := rfl

theorem address_ok {n size align : Nat} {c : Cls} {eo : Word} (h : addrTrap s (self s) n c eo size align = none) :
    address n c eo size align s = .ok (refAt (self s) n eo size, s) := by
  simp only [address, Act.bind_ok Act.get_ok, h]; rfl

theorem address_error {n size align : Nat} {c : Cls} {eo : Word} {p : Nat × Word}
    (h : addrTrap s (self s) n c eo size align = some p) : address n c eo size align s = .error (.trap p.1 p.2 0) := by
  simp only [address, Act.bind_ok Act.get_ok, h]; rfl

/-! ### Issuing -/

theorem self_of (h : thr s s.cur = some t) : self s = t := by simp [self, h]

theorem issue_next {a : Act Flow} {f : Flow} (h : thr s s.cur = some t) (hm : mayIssue t = true) (ha : a s = .ok (f, s1)) :
    issue a s = .next (finish s1 f) := by simp only [issue, h, hm, ha, if_true]

theorem issue_trap {a : Act Flow} {c : Nat} {v ta : Word} (h : thr s s.cur = some t) (hm : mayIssue t = true)
    (ha : a s = .error (.trap c v ta)) : issue a s = .next (enterTrap s s.cur c false v ta t.pc) := by
  simp only [issue, h, hm, ha, if_true]

theorem issue_wait {a : Act Flow} {w : Wait} {f : State → State} (h : thr s s.cur = some t) (hm : mayIssue t = true)
    (ha : a s = .error (.wait w f)) : issue a s = .next (waiting (f s) w) := by
  simp only [issue, h, hm, ha, if_true]

/-! ### Threads -/

theorem thr_setThr_same (s : State) (k : Nat) (t : Thread) : thr (setThr s k t) k = some t := by simp [thr]
theorem thr_setThr_other (s : State) {k j : Nat} (t : Thread) (h : j ≠ k) : thr (setThr s k t) j = thr s j := by
  simp [thr, find_put_other _ _ h]
theorem modSelf_of (h : thr s s.cur = some t) (f : Thread → Thread) : modSelf s f = setThr s s.cur (f t) := by
  simp [modSelf, modThr, h]

/-! ### Touches and gates -/

/-- A read of a range notes only the tow mark of its line. -/
theorem noteRead_kept (s : State) (a : Nat) : (noteRead s a).threads = s.threads ∧ (noteRead s a).mem = s.mem ∧
    (noteRead s a).cur = s.cur ∧ (noteRead s a).poison = s.poison := by
  unfold noteRead
  split
  · unfold reportTow
    split
    · split <;> simp [setTag]
    · simp
  · simp

theorem readPlace_none {a n : Nat} (h : t.landed = none) : readPlace s t a n = readBytes s.mem a n := by simp [readPlace, readLanded, h]

/-- R61: a touch of words that are there waits for nothing, unless an earlier one has landed bytes to take. -/
theorem touchWaits_none {a n : Nat} {l : Option Landed} {who : Toucher} (h : absentWords s a n = [])
    (ho : ∀ l ∈ linesOf a n, othersFirst s who l = false) : touchWaits s a n l who = none := by
  have hn : ((linesOf a n).find? fun l => (tagAt s (l * 128)).isSome && othersFirst s who l) = none := by
    rw [List.find?_eq_none]; intro x hx; simp [ho x hx]
  simp [touchWaits, h, hn]

theorem touchGate_ok {a n : Nat} (h : absentWords s a n = []) (ho : ∀ l ∈ linesOf a n, othersFirst s (.slot s.cur) l = false) :
    touchGate a n s = .ok ((), s) := by
  simp only [touchGate, Act.bind_ok Act.get_ok, touchWaits_none h ho]; rfl

theorem laneGate_ok {a n : Nat} (h : laneBusy s a n = false) : laneGate a n s = .ok ((), s) := by
  simp only [laneGate, Act.bind_ok Act.get_ok, h]; rfl

theorem afterAcquire_ok (h : (self s).outs.any (fun o => o.acq) = false) : afterAcquire s = .ok ((), s) := by
  simp only [afterAcquire, Act.bind_ok me_ok, h]; rfl

/-- R87: entries that the store buffer has room for enter it, stamped with the thread's place in its program order, and its
drain is due. -/
theorem bufferStores_ok {es : List SbEntry} (hh : holds (self s) = false) (hn : (core s (coreOf s.cur)).sb.length + es.length ≤ 32) :
    bufferStores es s = .ok (PUnit.unit, enterBuffer s (coreOf s.cur)
      (es.map fun e => { e with tx := s.nextTx, swid := (self s).swid, m := (self s).level == .m })) := by
  have hd : decide (32 < (core s (coreOf s.cur)).sb.length + es.length) = false := by simp; omega
  simp only [bufferStores, Act.bind_ok Act.get_ok, hh, hd]; rfl

end Sys2Proof.Machine
end

