-- ==== Sys2Proof/Laws/PerInstr.lean ====
section
/-! SUPPORT. One lemma per constructor of Instr: the rows of the opcode table that share a word do share it. -/

namespace Sys2Proof.Laws.Coded

/-- The instruction that the decoder names for an instruction's word has that word. -/
def Statement (i : Instr) : Prop := encode i.decodedAs = encode i

theorem add x0 x1 x2 : Statement (.add x0 x1 x2) := rfl
theorem sub x0 x1 x2 : Statement (.sub x0 x1 x2) := rfl
theorem mul x0 x1 x2 : Statement (.mul x0 x1 x2) := rfl
theorem mulh x0 x1 x2 : Statement (.mulh x0 x1 x2) := rfl
theorem mulhu x0 x1 x2 : Statement (.mulhu x0 x1 x2) := rfl
theorem mulhsu x0 x1 x2 : Statement (.mulhsu x0 x1 x2) := rfl
theorem div x0 x1 x2 : Statement (.div x0 x1 x2) := rfl
theorem divu x0 x1 x2 : Statement (.divu x0 x1 x2) := rfl
theorem rem x0 x1 x2 : Statement (.rem x0 x1 x2) := rfl
theorem remu x0 x1 x2 : Statement (.remu x0 x1 x2) := rfl
theorem and x0 x1 x2 : Statement (.and x0 x1 x2) := rfl
theorem or x0 x1 x2 : Statement (.or x0 x1 x2) := rfl
theorem xor x0 x1 x2 : Statement (.xor x0 x1 x2) := rfl
theorem andn x0 x1 x2 : Statement (.andn x0 x1 x2) := rfl
theorem orn x0 x1 x2 : Statement (.orn x0 x1 x2) := rfl
theorem xnor x0 x1 x2 : Statement (.xnor x0 x1 x2) := rfl
theorem shl x0 x1 x2 : Statement (.shl x0 x1 x2) := rfl
theorem shr x0 x1 x2 : Statement (.shr x0 x1 x2) := rfl
theorem sra x0 x1 x2 : Statement (.sra x0 x1 x2) := rfl
theorem rol x0 x1 x2 : Statement (.rol x0 x1 x2) := rfl
theorem ror x0 x1 x2 : Statement (.ror x0 x1 x2) := rfl
theorem min x0 x1 x2 : Statement (.min x0 x1 x2) := rfl
theorem max x0 x1 x2 : Statement (.max x0 x1 x2) := rfl
theorem minu x0 x1 x2 : Statement (.minu x0 x1 x2) := rfl
theorem maxu x0 x1 x2 : Statement (.maxu x0 x1 x2) := rfl
theorem seq x0 x1 x2 : Statement (.seq x0 x1 x2) := rfl
theorem sne x0 x1 x2 : Statement (.sne x0 x1 x2) := rfl
theorem slt x0 x1 x2 : Statement (.slt x0 x1 x2) := rfl
theorem sltu x0 x1 x2 : Statement (.sltu x0 x1 x2) := rfl
theorem sle x0 x1 x2 : Statement (.sle x0 x1 x2) := rfl
theorem sleu x0 x1 x2 : Statement (.sleu x0 x1 x2) := rfl
theorem sel x0 x1 x2 : Statement (.sel x0 x1 x2) := rfl
theorem clz x0 x1 : Statement (.clz x0 x1) := rfl
theorem ctz x0 x1 : Statement (.ctz x0 x1) := rfl
theorem popc x0 x1 : Statement (.popc x0 x1) := rfl
theorem brev x0 x1 : Statement (.brev x0 x1) := rfl
theorem bswap x0 x1 : Statement (.bswap x0 x1) := rfl
theorem sextb x0 x1 : Statement (.sextb x0 x1) := rfl
theorem sexth x0 x1 : Statement (.sexth x0 x1) := rfl
theorem sextw x0 x1 : Statement (.sextw x0 x1) := rfl
theorem zextb x0 x1 : Statement (.zextb x0 x1) := rfl
theorem zexth x0 x1 : Statement (.zexth x0 x1) := rfl
theorem zextw x0 x1 : Statement (.zextw x0 x1) := rfl
theorem hash x0 x1 x2 : Statement (.hash x0 x1 x2) := rfl
theorem addi x0 x1 x2 : Statement (.addi x0 x1 x2) := rfl
theorem andi x0 x1 x2 : Statement (.andi x0 x1 x2) := rfl
theorem ori x0 x1 x2 : Statement (.ori x0 x1 x2) := rfl
theorem xori x0 x1 x2 : Statement (.xori x0 x1 x2) := rfl
theorem slti x0 x1 x2 : Statement (.slti x0 x1 x2) := rfl
theorem sltiu x0 x1 x2 : Statement (.sltiu x0 x1 x2) := rfl
theorem shli x0 x1 x2 : Statement (.shli x0 x1 x2) := rfl
theorem shri x0 x1 x2 : Statement (.shri x0 x1 x2) := rfl
theorem srai x0 x1 x2 : Statement (.srai x0 x1 x2) := rfl
theorem rori x0 x1 x2 : Statement (.rori x0 x1 x2) := rfl
theorem movi x0 x1 : Statement (.movi x0 x1) := rfl
theorem movh x0 x1 x2 : Statement (.movh x0 x1 x2) := rfl
theorem bfx x0 x1 x2 x3 : Statement (.bfx x0 x1 x2 x3) := rfl
theorem bfi x0 x1 x2 x3 : Statement (.bfi x0 x1 x2 x3) := rfl
theorem beq x0 x1 x2 : Statement (.beq x0 x1 x2) := rfl
theorem bne x0 x1 x2 : Statement (.bne x0 x1 x2) := rfl
theorem blt x0 x1 x2 : Statement (.blt x0 x1 x2) := rfl
theorem bge x0 x1 x2 : Statement (.bge x0 x1 x2) := rfl
theorem bltu x0 x1 x2 : Statement (.bltu x0 x1 x2) := rfl
theorem bgeu x0 x1 x2 : Statement (.bgeu x0 x1 x2) := rfl
theorem jmp x0 : Statement (.jmp x0) := rfl
theorem call x0 x1 : Statement (.call x0 x1) := rfl
theorem jr x0 : Statement (.jr x0) := rfl
theorem callr x0 x1 : Statement (.callr x0 x1) := rfl
theorem bdnz x0 x1 : Statement (.bdnz x0 x1) := rfl
theorem ldb x0 x1 x2 x3 : Statement (.ldb x0 x1 x2 x3) := rfl
theorem ldbu x0 x1 x2 x3 : Statement (.ldbu x0 x1 x2 x3) := rfl
theorem ldh x0 x1 x2 x3 : Statement (.ldh x0 x1 x2 x3) := rfl
theorem ldhu x0 x1 x2 x3 : Statement (.ldhu x0 x1 x2 x3) := rfl
theorem ldw x0 x1 x2 x3 : Statement (.ldw x0 x1 x2 x3) := rfl
theorem ldwu x0 x1 x2 x3 : Statement (.ldwu x0 x1 x2 x3) := rfl
theorem ldd x0 x1 x2 x3 : Statement (.ldd x0 x1 x2 x3) := rfl
theorem stb x0 x1 x2 x3 : Statement (.stb x0 x1 x2 x3) := rfl
theorem sth x0 x1 x2 x3 : Statement (.sth x0 x1 x2 x3) := rfl
theorem stw x0 x1 x2 x3 : Statement (.stw x0 x1 x2 x3) := rfl
theorem std x0 x1 x2 x3 : Statement (.std x0 x1 x2 x3) := rfl
theorem ldqw x0 x1 x2 : Statement (.ldqw x0 x1 x2) := rfl
theorem ldqd x0 x1 x2 : Statement (.ldqd x0 x1 x2) := rfl
theorem stqw x0 x1 x2 : Statement (.stqw x0 x1 x2) := rfl
theorem stqd x0 x1 x2 : Statement (.stqd x0 x1 x2) := rfl
theorem lda x0 x1 x2 x3 x4 x5 : Statement (.lda x0 x1 x2 x3 x4 x5) := rfl
theorem stl x0 x1 x2 x3 x4 x5 : Statement (.stl x0 x1 x2 x3 x4 x5) := rfl
theorem fence x0 : Statement (.fence x0) := rfl
theorem aadd x0 x1 x2 x3 x4 x5 : Statement (.aadd x0 x1 x2 x3 x4 x5) := rfl
theorem aand x0 x1 x2 x3 x4 x5 : Statement (.aand x0 x1 x2 x3 x4 x5) := rfl
theorem aor x0 x1 x2 x3 x4 x5 : Statement (.aor x0 x1 x2 x3 x4 x5) := rfl
theorem axor x0 x1 x2 x3 x4 x5 : Statement (.axor x0 x1 x2 x3 x4 x5) := rfl
theorem amin x0 x1 x2 x3 x4 x5 : Statement (.amin x0 x1 x2 x3 x4 x5) := rfl
theorem amax x0 x1 x2 x3 x4 x5 : Statement (.amax x0 x1 x2 x3 x4 x5) := rfl
theorem aminu x0 x1 x2 x3 x4 x5 : Statement (.aminu x0 x1 x2 x3 x4 x5) := rfl
theorem amaxu x0 x1 x2 x3 x4 x5 : Statement (.amaxu x0 x1 x2 x3 x4 x5) := rfl
theorem aswp x0 x1 x2 x3 x4 x5 : Statement (.aswp x0 x1 x2 x3 x4 x5) := rfl
theorem acas x0 x1 x2 x3 x4 x5 : Statement (.acas x0 x1 x2 x3 x4 x5) := rfl
theorem strm x0 x1 x2 x3 : Statement (.strm x0 x1 x2 x3) := rfl
theorem strx x0 x1 x2 x3 : Statement (.strx x0 x1 x2 x3) := rfl
theorem strq x0 x1 : Statement (.strq x0 x1) := rfl
theorem pref x0 x1 x2 : Statement (.pref x0 x1 x2) := rfl
theorem cflush x0 x1 : Statement (.cflush x0 x1) := rfl
theorem cinv x0 x1 : Statement (.cinv x0 x1) := rfl
theorem bsnmap x0 x1 x2 : Statement (.bsnmap x0 x1 x2) := rfl
theorem bsnsync x0 x1 : Statement (.bsnsync x0 x1) := rfl
theorem bsndropWb x0 x1 : Statement (.bsndropWb x0 x1) := rfl
theorem bsndropNw x0 x1 : Statement (.bsndropNw x0 x1) := rfl
theorem bsnqry x0 x1 : Statement (.bsnqry x0 x1) := rfl
theorem twrecNew x0 x1 x2 : Statement (.twrecNew x0 x1 x2) := rfl
theorem twrecRerecord x0 x1 x2 : Statement (.twrecRerecord x0 x1 x2) := rfl
theorem twstep x0 x1 : Statement (.twstep x0 x1) := rfl
theorem twend x0 x1 : Statement (.twend x0 x1) := rfl
theorem twstat x0 x1 : Statement (.twstat x0 x1) := rfl
theorem twdrop x0 x1 : Statement (.twdrop x0 x1) := rfl
theorem vaddI32 x0 x1 x2 x3 : Statement (.vaddI32 x0 x1 x2 x3) := rfl
theorem vsubI32 x0 x1 x2 x3 : Statement (.vsubI32 x0 x1 x2 x3) := rfl
theorem vmulI32 x0 x1 x2 x3 : Statement (.vmulI32 x0 x1 x2 x3) := rfl
theorem vmulhI32 x0 x1 x2 x3 : Statement (.vmulhI32 x0 x1 x2 x3) := rfl
theorem vminI32 x0 x1 x2 x3 : Statement (.vminI32 x0 x1 x2 x3) := rfl
theorem vmaxI32 x0 x1 x2 x3 : Statement (.vmaxI32 x0 x1 x2 x3) := rfl
theorem vminuI32 x0 x1 x2 x3 : Statement (.vminuI32 x0 x1 x2 x3) := rfl
theorem vmaxuI32 x0 x1 x2 x3 : Statement (.vmaxuI32 x0 x1 x2 x3) := rfl
theorem vandI32 x0 x1 x2 x3 : Statement (.vandI32 x0 x1 x2 x3) := rfl
theorem vorI32 x0 x1 x2 x3 : Statement (.vorI32 x0 x1 x2 x3) := rfl
theorem vxorI32 x0 x1 x2 x3 : Statement (.vxorI32 x0 x1 x2 x3) := rfl
theorem vshlI32 x0 x1 x2 x3 : Statement (.vshlI32 x0 x1 x2 x3) := rfl
theorem vshrI32 x0 x1 x2 x3 : Statement (.vshrI32 x0 x1 x2 x3) := rfl
theorem vsraI32 x0 x1 x2 x3 : Statement (.vsraI32 x0 x1 x2 x3) := rfl
theorem vaddsI32 x0 x1 x2 x3 : Statement (.vaddsI32 x0 x1 x2 x3) := rfl
theorem vsubsI32 x0 x1 x2 x3 : Statement (.vsubsI32 x0 x1 x2 x3) := rfl
theorem vaddI8x4 x0 x1 x2 x3 : Statement (.vaddI8x4 x0 x1 x2 x3) := rfl
theorem vsubI8x4 x0 x1 x2 x3 : Statement (.vsubI8x4 x0 x1 x2 x3) := rfl
theorem vaddsI8x4 x0 x1 x2 x3 : Statement (.vaddsI8x4 x0 x1 x2 x3) := rfl
theorem vsubsI8x4 x0 x1 x2 x3 : Statement (.vsubsI8x4 x0 x1 x2 x3) := rfl
theorem vminI8x4 x0 x1 x2 x3 : Statement (.vminI8x4 x0 x1 x2 x3) := rfl
theorem vmaxI8x4 x0 x1 x2 x3 : Statement (.vmaxI8x4 x0 x1 x2 x3) := rfl
theorem vminuI8x4 x0 x1 x2 x3 : Statement (.vminuI8x4 x0 x1 x2 x3) := rfl
theorem vmaxuI8x4 x0 x1 x2 x3 : Statement (.vmaxuI8x4 x0 x1 x2 x3) := rfl
theorem vdot4 x0 x1 x2 x3 : Statement (.vdot4 x0 x1 x2 x3) := rfl
theorem vdot4su x0 x1 x2 x3 : Statement (.vdot4su x0 x1 x2 x3) := rfl
theorem vabsdI8x4 x0 x1 x2 x3 : Statement (.vabsdI8x4 x0 x1 x2 x3) := rfl
theorem vavgI8x4 x0 x1 x2 x3 : Statement (.vavgI8x4 x0 x1 x2 x3) := rfl
theorem vaddBf16x2 x0 x1 x2 x3 : Statement (.vaddBf16x2 x0 x1 x2 x3) := rfl
theorem vsubBf16x2 x0 x1 x2 x3 : Statement (.vsubBf16x2 x0 x1 x2 x3) := rfl
theorem vmulBf16x2 x0 x1 x2 x3 : Statement (.vmulBf16x2 x0 x1 x2 x3) := rfl
theorem vfmaBf16x2 x0 x1 x2 x3 : Statement (.vfmaBf16x2 x0 x1 x2 x3) := rfl
theorem vminBf16x2 x0 x1 x2 x3 : Statement (.vminBf16x2 x0 x1 x2 x3) := rfl
theorem vmaxBf16x2 x0 x1 x2 x3 : Statement (.vmaxBf16x2 x0 x1 x2 x3) := rfl
theorem vdot2 x0 x1 x2 x3 : Statement (.vdot2 x0 x1 x2 x3) := rfl
theorem vaddF32 x0 x1 x2 x3 : Statement (.vaddF32 x0 x1 x2 x3) := rfl
theorem vsubF32 x0 x1 x2 x3 : Statement (.vsubF32 x0 x1 x2 x3) := rfl
theorem vmulF32 x0 x1 x2 x3 : Statement (.vmulF32 x0 x1 x2 x3) := rfl
theorem vfmaF32 x0 x1 x2 x3 : Statement (.vfmaF32 x0 x1 x2 x3) := rfl
theorem vfmsF32 x0 x1 x2 x3 : Statement (.vfmsF32 x0 x1 x2 x3) := rfl
theorem vminF32 x0 x1 x2 x3 : Statement (.vminF32 x0 x1 x2 x3) := rfl
theorem vmaxF32 x0 x1 x2 x3 : Statement (.vmaxF32 x0 x1 x2 x3) := rfl
theorem vabsF32 x0 x1 x2 : Statement (.vabsF32 x0 x1 x2) := rfl
theorem vnegF32 x0 x1 x2 : Statement (.vnegF32 x0 x1 x2) := rfl
theorem frcpa x0 x1 x2 : Statement (.frcpa x0 x1 x2) := rfl
theorem frsqa x0 x1 x2 : Statement (.frsqa x0 x1 x2) := rfl
theorem fexp2a x0 x1 x2 : Statement (.fexp2a x0 x1 x2) := rfl
theorem vcvtF32I32 x0 x1 x2 x3 : Statement (.vcvtF32I32 x0 x1 x2 x3) := rfl
theorem vcvtI32F32 x0 x1 x2 x3 : Statement (.vcvtI32F32 x0 x1 x2 x3) := rfl
theorem vcvtF32Bf16 x0 x1 x2 x3 : Statement (.vcvtF32Bf16 x0 x1 x2 x3) := rfl
theorem vcvtBf16F32 x0 x1 x2 x3 x4 : Statement (.vcvtBf16F32 x0 x1 x2 x3 x4) := rfl
theorem vcvtF32E4m3 x0 x1 x2 x3 : Statement (.vcvtF32E4m3 x0 x1 x2 x3) := rfl
theorem vcvtF32E5m2 x0 x1 x2 x3 : Statement (.vcvtF32E5m2 x0 x1 x2 x3) := rfl
theorem vcvtE4m3F32 x0 x1 x2 x3 x4 : Statement (.vcvtE4m3F32 x0 x1 x2 x3 x4) := rfl
theorem vcvtE5m2F32 x0 x1 x2 x3 x4 : Statement (.vcvtE5m2F32 x0 x1 x2 x3 x4) := rfl
theorem vcvtF32I8 x0 x1 x2 x3 : Statement (.vcvtF32I8 x0 x1 x2 x3) := rfl
theorem vcvtI8F32 x0 x1 x2 x3 x4 : Statement (.vcvtI8F32 x0 x1 x2 x3 x4) := rfl
theorem vld x0 x1 x2 x3 : Statement (.vld x0 x1 x2 x3) := rfl
theorem vst x0 x1 x2 x3 : Statement (.vst x0 x1 x2 x3) := rfl
theorem vlds x0 x1 x2 x3 x4 : Statement (.vlds x0 x1 x2 x3 x4) := rfl
theorem vgath x0 x1 x2 x3 x4 : Statement (.vgath x0 x1 x2 x3 x4) := rfl
theorem vscat x0 x1 x2 x3 x4 : Statement (.vscat x0 x1 x2 x3 x4) := rfl
theorem vbcast x0 x1 x2 : Statement (.vbcast x0 x1 x2) := rfl
theorem vextr x0 x1 x2 : Statement (.vextr x0 x1 x2) := rfl
theorem vins x0 x1 x2 x3 : Statement (.vins x0 x1 x2 x3) := rfl
theorem vperm x0 x1 x2 x3 : Statement (.vperm x0 x1 x2 x3) := rfl
theorem vrot x0 x1 x2 x3 : Statement (.vrot x0 x1 x2 x3) := rfl
theorem vredaddI32 x0 x1 x2 : Statement (.vredaddI32 x0 x1 x2) := rfl
theorem vredaddF32 x0 x1 x2 : Statement (.vredaddF32 x0 x1 x2) := rfl
theorem vredmaxI32 x0 x1 x2 : Statement (.vredmaxI32 x0 x1 x2) := rfl
theorem vredmaxF32 x0 x1 x2 : Statement (.vredmaxF32 x0 x1 x2) := rfl
theorem vscanI32 x0 x1 x2 : Statement (.vscanI32 x0 x1 x2) := rfl
theorem vscanF32 x0 x1 x2 : Statement (.vscanF32 x0 x1 x2) := rfl
theorem vcmpeqI32 x0 x1 x2 : Statement (.vcmpeqI32 x0 x1 x2) := rfl
theorem vcmpltI32 x0 x1 x2 : Statement (.vcmpltI32 x0 x1 x2) := rfl
theorem vcmpltuI32 x0 x1 x2 : Statement (.vcmpltuI32 x0 x1 x2) := rfl
theorem vcmpleI32 x0 x1 x2 : Statement (.vcmpleI32 x0 x1 x2) := rfl
theorem vcmpeqF32 x0 x1 x2 : Statement (.vcmpeqF32 x0 x1 x2) := rfl
theorem vcmpltF32 x0 x1 x2 : Statement (.vcmpltF32 x0 x1 x2) := rfl
theorem vcmpleF32 x0 x1 x2 : Statement (.vcmpleF32 x0 x1 x2) := rfl
theorem vcmpunF32 x0 x1 x2 : Statement (.vcmpunF32 x0 x1 x2) := rfl
theorem vsel x0 x1 x2 : Statement (.vsel x0 x1 x2) := rfl
theorem vpmovToX x0 : Statement (.vpmovToX x0) := rfl
theorem vpmovToVp x0 : Statement (.vpmovToVp x0) := rfl
theorem jsub x0 x1 : Statement (.jsub x0 x1) := rfl
theorem jpoll x0 x1 : Statement (.jpoll x0 x1) := rfl
theorem jwait x0 x1 : Statement (.jwait x0 x1) := rfl
theorem jcancel x0 x1 : Statement (.jcancel x0 x1) := rfl
theorem mgang x0 x1 : Statement (.mgang x0 x1) := rfl
theorem rdone : Statement (.rdone) := rfl
theorem spawn x0 x1 x2 : Statement (.spawn x0 x1 x2) := rfl
theorem exit : Statement (.exit) := rfl
theorem yield : Statement (.yield) := rfl
theorem sleep x0 : Statement (.sleep x0) := rfl
theorem wakeSlot x0 x1 : Statement (.wakeSlot x0 x1) := rfl
theorem wakeSwid x0 x1 : Statement (.wakeSwid x0 x1) := rfl
theorem wakeParked x0 x1 : Statement (.wakeParked x0 x1) := rfl
theorem join x0 x1 : Statement (.join x0 x1) := rfl
theorem leave x0 x1 : Statement (.leave x0 x1) := rfl
theorem gbar x0 x1 : Statement (.gbar x0 x1) := rfl
theorem gcnt x0 x1 : Statement (.gcnt x0 x1) := rfl
theorem sluice x0 x1 : Statement (.sluice x0 x1) := rfl
theorem tid x0 : Statement (.tid x0) := rfl
theorem flaunch x0 x1 : Statement (.flaunch x0 x1) := rfl
theorem send x0 x1 x2 x3 : Statement (.send x0 x1 x2 x3) := rfl
theorem recv x0 x1 : Statement (.recv x0 x1) := rfl
theorem recvt x0 x1 x2 : Statement (.recvt x0 x1 x2) := rfl
theorem rack x0 x1 : Statement (.rack x0 x1) := rfl
theorem epnew x0 x1 : Statement (.epnew x0 x1) := rfl
theorem epfree x0 x1 : Statement (.epfree x0 x1) := rfl
theorem epmove x0 x1 x2 : Statement (.epmove x0 x1 x2) := rfl
theorem tcall x0 x1 x2 x3 : Statement (.tcall x0 x1 x2 x3) := rfl
theorem tans x0 x1 x2 : Statement (.tans x0 x1 x2) := rfl
theorem tret : Statement (.tret) := rfl
theorem tnext x0 x1 : Statement (.tnext x0 x1) := rfl
theorem terr : Statement (.terr) := rfl
theorem trel x0 : Statement (.trel x0) := rfl
theorem tlook x0 x1 x2 x3 : Statement (.tlook x0 x1 x2 x3) := rfl
theorem tctlStat x0 x1 x2 : Statement (.tctlStat x0 x1 x2) := rfl
theorem tctlFlushCallee x0 x1 x2 : Statement (.tctlFlushCallee x0 x1 x2) := rfl
theorem tctlFlushCid x0 x1 x2 : Statement (.tctlFlushCid x0 x1 x2) := rfl
theorem mfs x0 x1 : Statement (.mfs x0 x1) := rfl
theorem mts x0 x1 : Statement (.mts x0 x1) := rfl
theorem trap x0 : Statement (.trap x0) := rfl
theorem eret : Statement (.eret) := rfl
theorem brk x0 : Statement (.brk x0) := rfl
theorem segld x0 x1 : Statement (.segld x0 x1) := rfl
theorem segrd x0 x1 : Statement (.segrd x0 x1) := rfl
theorem pinv x0 x1 x2 : Statement (.pinv x0 x1 x2) := rfl
theorem asyncTrapDelivery x0 : Statement (.asyncTrapDelivery x0) := rfl
theorem operationResult x0 x1 : Statement (.operationResult x0 x1) := rfl
theorem loadDataArrives x0 x1 x2 x3 : Statement (.loadDataArrives x0 x1 x2 x3) := rfl
theorem storeDrain x0 : Statement (.storeDrain x0) := rfl
theorem storeAck x0 x1 x2 x3 : Statement (.storeAck x0 x1 x2 x3) := rfl
theorem hostDone x0 : Statement (.hostDone x0) := rfl
theorem requestAtHome x0 x1 : Statement (.requestAtHome x0 x1) := rfl
theorem memoryReplyAtHome x0 x1 x2 : Statement (.memoryReplyAtHome x0 x1 x2) := rfl
theorem memoryControllerRequest x0 x1 x2 : Statement (.memoryControllerRequest x0 x1 x2) := rfl
theorem hotnessIntervalEnd x0 : Statement (.hotnessIntervalEnd x0) := rfl
theorem mgHotctlWrite x0 : Statement (.mgHotctlWrite x0) := rfl
theorem l1FillLands x0 x1 x2 x3 x4 : Statement (.l1FillLands x0 x1 x2 x3 x4) := rfl
theorem invalidationProbe x0 x1 x2 x3 : Statement (.invalidationProbe x0 x1 x2 x3) := rfl
theorem probeAckAtHome x0 x1 x2 x3 : Statement (.probeAckAtHome x0 x1 x2 x3) := rfl
theorem towArrivesL1 x0 x1 x2 x3 x4 x5 : Statement (.towArrivesL1 x0 x1 x2 x3 x4 x5) := rfl
theorem towArrivesBasin x0 x1 x2 x3 x4 x5 : Statement (.towArrivesBasin x0 x1 x2 x3 x4 x5) := rfl
theorem towAck x0 x1 x2 : Statement (.towAck x0 x1 x2) := rfl
theorem towUseReport x0 x1 x2 : Statement (.towUseReport x0 x1 x2) := rfl
theorem stepMessage x0 x1 x2 : Statement (.stepMessage x0 x1 x2) := rfl
theorem remoteAccessArrival x0 : Statement (.remoteAccessArrival x0) := rfl
theorem domAccessArrival x0 x1 x2 : Statement (.domAccessArrival x0 x1 x2) := rfl
theorem domainTimeout x0 : Statement (.domainTimeout x0) := rfl
theorem basinFillLands x0 x1 x2 x3 x4 : Statement (.basinFillLands x0 x1 x2 x3 x4) := rfl
theorem basinInvalidationProbe x0 x1 x2 x3 x4 x5 x6 x7 : Statement (.basinInvalidationProbe x0 x1 x2 x3 x4 x5 x6 x7) := rfl
theorem recallProbe x0 x1 x2 x3 x4 x5 : Statement (.recallProbe x0 x1 x2 x3 x4 x5) := rfl
theorem writeBackMessage x0 x1 : Statement (.writeBackMessage x0 x1) := rfl
theorem writeBackAck x0 x1 x2 x3 x4 x5 x6 x7 : Statement (.writeBackAck x0 x1 x2 x3 x4 x5 x6 x7) := rfl
theorem hostMemrdShared x0 x1 x2 x3 : Statement (.hostMemrdShared x0 x1 x2 x3) := rfl
theorem hostMemrdOwn x0 x1 x2 x3 : Statement (.hostMemrdOwn x0 x1 x2 x3) := rfl
theorem hostMemwr x0 x1 x2 x3 x4 x5 : Statement (.hostMemwr x0 x1 x2 x3 x4 x5) := rfl
theorem hostMeminv x0 x1 x2 x3 : Statement (.hostMeminv x0 x1 x2 x3) := rfl
theorem hostMemspecrd x0 x1 x2 x3 : Statement (.hostMemspecrd x0 x1 x2 x3) := rfl
theorem backInvalidationResponse x0 x1 x2 x3 x4 : Statement (.backInvalidationResponse x0 x1 x2 x3 x4) := rfl
theorem walkComplete x0 x1 x2 : Statement (.walkComplete x0 x1 x2) := rfl
theorem faultQueueRetry x0 : Statement (.faultQueueRetry x0) := rfl
theorem pinvAccept x0 x1 x2 x3 : Statement (.pinvAccept x0 x1 x2 x3) := rfl
theorem spawnArrival x0 : Statement (.spawnArrival x0) := rfl
theorem slotGrant x0 : Statement (.slotGrant x0) := rfl
theorem saveReported x0 : Statement (.saveReported x0) := rfl
theorem forcedSave x0 : Statement (.forcedSave x0) := rfl
theorem sleepLimit x0 : Statement (.sleepLimit x0) := rfl
theorem recvtLimit x0 : Statement (.recvtLimit x0) := rfl
theorem sluiceTimeout x0 x1 x2 : Statement (.sluiceTimeout x0 x1 x2) := rfl
theorem inboxDelivery x0 x1 : Statement (.inboxDelivery x0 x1) := rfl
theorem messageDelivery x0 : Statement (.messageDelivery x0) := rfl
theorem tsTchgWrite x0 x1 : Statement (.tsTchgWrite x0 x1) := rfl
theorem tsJrelWrite x0 x1 : Statement (.tsJrelWrite x0 x1) := rfl
theorem tsEwakeWrite x0 : Statement (.tsEwakeWrite x0) := rfl
theorem mtCtx x0 x1 : Statement (.mtCtx x0 x1) := rfl
theorem mtTern x0 x1 : Statement (.mtTern x0 x1) := rfl
theorem mtBooth x0 x1 : Statement (.mtBooth x0 x1) := rfl
theorem mtZero x0 x1 : Statement (.mtZero x0 x1) := rfl
theorem mtDrain x0 x1 : Statement (.mtDrain x0 x1) := rfl
theorem cpCopy x0 x1 : Statement (.cpCopy x0 x1) := rfl
theorem cpFill x0 x1 : Statement (.cpFill x0 x1) := rfl
theorem cpGath x0 x1 : Statement (.cpGath x0 x1) := rfl
theorem cpScat x0 x1 : Statement (.cpScat x0 x1) := rfl
theorem cpRed x0 x1 : Statement (.cpRed x0 x1) := rfl
theorem cpAr x0 x1 : Statement (.cpAr x0 x1) := rfl
theorem cpBcast x0 x1 : Statement (.cpBcast x0 x1) := rfl
theorem copyWriteAck x0 x1 x2 x3 x4 x5 : Statement (.copyWriteAck x0 x1 x2 x3 x4 x5) := rfl
theorem ringStep x0 x1 : Statement (.ringStep x0 x1) := rfl
theorem rowDrain x0 x1 x2 : Statement (.rowDrain x0 x1 x2) := rfl
theorem rowHandlerStart x0 : Statement (.rowHandlerStart x0) := rfl
theorem jobPreemption x0 x1 : Statement (.jobPreemption x0 x1) := rfl
theorem jobResume x0 x1 : Statement (.jobResume x0 x1) := rfl
theorem collectiveMatch x0 x1 x2 : Statement (.collectiveMatch x0 x1 x2) := rfl
theorem collectiveTimeout x0 x1 : Statement (.collectiveTimeout x0 x1) := rfl
theorem snapshotRestore x0 x1 : Statement (.snapshotRestore x0 x1) := rfl
theorem hostRingSlot x0 : Statement (.hostRingSlot x0) := rfl
theorem counterPoll x0 : Statement (.counterPoll x0) := rfl
theorem launchPlacement x0 : Statement (.launchPlacement x0) := rfl
theorem flotillaRetirement x0 : Statement (.flotillaRetirement x0) := rfl
theorem doorbellTail x0 x1 : Statement (.doorbellTail x0 x1) := rfl
theorem doorbellRerrClear x0 x1 : Statement (.doorbellRerrClear x0 x1) := rfl
theorem partCreate x0 : Statement (.partCreate x0) := rfl
theorem partDestroy x0 : Statement (.partDestroy x0) := rfl
theorem vfBind x0 x1 : Statement (.vfBind x0 x1) := rfl
theorem flushCommon : Statement (.flushCommon) := rfl
theorem domainSet x0 x1 : Statement (.domainSet x0 x1) := rfl
theorem vfEnableClear : Statement (.vfEnableClear) := rfl
theorem functionLevelReset x0 : Statement (.functionLevelReset x0) := rfl
theorem vfEnableSet : Statement (.vfEnableSet) := rfl
theorem attestationReport x0 : Statement (.attestationReport x0) := rfl
theorem aqueductPortFailure x0 : Statement (.aqueductPortFailure x0) := rfl
theorem cxlResponseTimeout x0 x1 x2 x3 : Statement (.cxlResponseTimeout x0 x1 x2 x3) := rfl
theorem marchTestComplete x0 x1 x2 x3 x4 x5 : Statement (.marchTestComplete x0 x1 x2 x3 x4 x5) := rfl
theorem reset : Statement (.reset) := rfl
theorem calibrationComplete x0 x1 x2 x3 x4 : Statement (.calibrationComplete x0 x1 x2 x3 x4) := rfl
theorem memoryInitComplete : Statement (.memoryInitComplete) := rfl
theorem zeroingComplete : Statement (.zeroingComplete) := rfl
theorem powerLimit : Statement (.powerLimit) := rfl
theorem thermalShutdown : Statement (.thermalShutdown) := rfl
theorem chipScratchpadAccess x0 : Statement (.chipScratchpadAccess x0) := rfl
theorem barWindowAccess x0 x1 x2 : Statement (.barWindowAccess x0 x1 x2) := rfl
theorem slotLending x0 : Statement (.slotLending x0) := rfl

end Sys2Proof.Laws.Coded
end

