-- ==== Sys2Proof/Tests/Slice0.lean ====
section
/-! SUPPORT. The model's own tests: ill-formed terms that well-formedness refuses, words written out from the encoding
tables of the spec, single steps with results taken from the spec, and for every obligation with hypotheses states and
operands that meet them. -/

namespace Sys2Proof.Tests
open Sys2Proof Sys2Proof.Machine Sys2Proof.Claims

set_option Elab.async false

/-! ### Helpers -/

/-- A segment: the five rights as a number, kind, base, target, limit (R17). -/
def seg (rights kind base tgt limit : Nat) : Seg :=
  { s0 := word (rights * 2 ^ 55 + kind * 2 ^ 52 + base), s1 := word (tgt * 2 ^ 52 + limit) }

/-- A thread with a segment of each kind and x0 = 84, x1 = 36. -/
def t0 : Thread :=
  { fetcher blank with
    regs := 84 :: 36 :: List.replicate 14 0, rbase := 0, swid := 9, spt := 0x0808
    segs := [seg 31 2 0x1000 0 0x1000, seg 31 1 0 0 0x400, seg 31 3 0x1000 0 0x1000, seg 31 4 0x1000 0 0x1000, seg 31 5 0x10000 0 0x10000,
      seg 31 6 0x1000 1 0x1000, seg 31 7 0x10000 1 0x10000, seg 31 2 0 0 0x1000] }

/-- A state with that thread in slot 0 of core 0. -/
def s0 : State := modCluster (setThr State.reset 0 t0) 0 fun c => { c with cid := 1, acc := BitVec.allOnes 256, msg := BitVec.allOnes 256 }

/-- That thread and state with x[r] = v. -/
def tx (r : Nat) (v : Word) : Thread := { t0 with regs := t0.regs.set r v }
def sx (r : Nat) (v : Word) : State := setThr s0 0 (tx r v)

/-- An action answers a value and a state. -/
def ok {α : Type} [DecidableEq α] (x : Except Stop (α × State)) (a : α) (s : State) : Bool :=
  match x with
  | .ok (b, t) => b == a && t == s
  | .error _ => false

theorem ok_eq {α : Type} [DecidableEq α] {x : Except Stop (α × State)} {a : α} {s : State} (h : ok x a s = true) :
    x = .ok (a, s) := by
  unfold ok at h
  split at h
  · simp only [Bool.and_eq_true, beq_iff_eq] at h
    rw [h.1, h.2]
  · cases h

/-- An outcome is a next state with a property. -/
def nextWith (o : Out) (p : State → Bool) : Bool :=
  match o with
  | .next s => p s
  | .fault _ => false
  | .refused _ => false

/-- Register r of the thread in slot 0. -/
def x (s : State) (r : Nat) : Option Word := (thr s 0).bind fun t => t.regs[r]?

/-- An instruction run in a state leaves x[r] = v in slot 0. -/
def leaves (i : Instr) (s : State) (r : Nat) (v : Word) : Bool := nextWith (exec i s) fun s' => x s' r == some v

/-- An instruction run in a state traps with a cause in slot 0. -/
def trapsWith (i : Instr) (s : State) (cause : Nat) : Bool :=
  nextWith (exec i s) fun s' => (thr s' 0).any fun t => t.cause == BitVec.ofNat 64 cause && t.inh

/-! ### Ill-formed terms (R154, R160 to R172), one for each check -/

theorem test_wf_source_sd : Instr.wf (.add 2 125 1) = false := by decide
theorem test_wf_destination_ld : Instr.wf (.add 124 0 1) = false := by decide
theorem test_wf_destination_ib : Instr.wf (.movi 126 0) = false := by decide
theorem test_wf_link_register : Instr.wf (.call 112 3) = false := by decide
theorem test_wf_counter_zr : Instr.wf (.bdnz 127 3) = false := by decide
theorem test_wf_field_past_bit_63 : Instr.wf (.bfx 2 1 48 31) = false := by decide
theorem test_wf_stream_register : Instr.wf (.strm 5 0 1 0) = false := by decide
theorem test_wf_group_special : Instr.wf (.spawn 12 124 4) = false := by decide
theorem test_wf_register_unknown : Instr.wf (.mfs 3 0x3FFF) = false := by decide
theorem test_wf_register_read_only : Instr.wf (.mts 3 0x008) = false := by decide
theorem test_wf_accepts : Instr.wf (.add 125 124 126) = true := by decide

/-! ### Words written out from the encoding tables (R153 to R172), one or more a family -/

theorem test_word_sub : decodeWord (1#6 ++ 2#7 ++ 127#7 ++ 124#7 ++ 1#5) = some (.sub 2 127 124) := by decide
theorem test_word_divu : decodeWord (1#6 ++ 3#7 ++ 0#7 ++ 1#7 ++ 7#5) = some (.divu 3 0 1) := by decide
theorem test_word_sel : decodeWord (1#6 ++ 3#7 ++ 0#7 ++ 1#7 ++ 31#5) = some (.sel 3 0 1) := by decide
theorem test_word_brev : decodeWord (2#6 ++ 3#7 ++ 111#7 ++ 3#12) = some (.brev 3 111) := by decide
theorem test_word_hash : decodeWord (2#6 ++ 3#7 ++ 0#7 ++ 1#7 ++ 11#5) = some (.hash 3 0 1) := by decide
theorem test_word_clz_extra_bits : decodeWord (2#6 ++ 3#7 ++ 0#7 ++ 1#7 ++ 0#5) = none := by decide
theorem test_word_andi : decodeWord (4#6 ++ 3#7 ++ 0#7 ++ 0xFFF#12) = some (.andi 3 0 0xFFF) := by decide
theorem test_word_rori : decodeWord (9#6 ++ 3#7 ++ 0#7 ++ 3#2 ++ 0#4 ++ 63#6) = some (.rori 3 0 63) := by decide
theorem test_word_shli_extra_bits : decodeWord (9#6 ++ 3#7 ++ 0#7 ++ 0#2 ++ 1#4 ++ 63#6) = none := by decide
theorem test_word_movi : decodeWord (10#6 ++ 127#7 ++ 0x40000#19) = some (.movi 127 0x40000) := by decide
theorem test_word_movh : decodeWord (11#6 ++ 1#7 ++ 0#1 ++ 3#2 ++ 0xBEEF#16) = some (.movh 1 3 0xBEEF) := by decide
theorem test_word_bfi : decodeWord (12#6 ++ 1#7 ++ 2#7 ++ 1#1 ++ 32#6 ++ 31#5) = some (.bfi 1 2 32 31) := by decide
theorem test_word_bltu : decodeWord (20#6 ++ 1#7 ++ 2#7 ++ 0x800#12) = some (.bltu 1 2 0x800) := by decide
theorem test_word_callr : decodeWord (24#6 ++ 4#7 ++ 4#7 ++ 1#12) = some (.callr 4 4) := by decide
theorem test_word_bdnz : decodeWord (25#6 ++ 4#7 ++ 0x7FFFF#19) = some (.bdnz 4 0x7FFFF) := by decide
theorem test_word_ldhu : decodeWord (35#6 ++ 4#7 ++ 5#7 ++ 6#3 ++ 0x100#9) = some (.ldhu 4 5 6 0x100) := by decide
theorem test_word_sth : decodeWord (40#6 ++ 4#7 ++ 5#7 ++ 6#3 ++ 0x100#9) = some (.sth 4 5 6 0x100) := by decide
theorem test_word_ldqd : decodeWord (43#6 ++ 1#7 ++ 5#7 ++ 6#3 ++ 0x100#9) = some (.ldqd 5 6 0x100) := by decide
theorem test_word_stl : decodeWord (44#6 ++ 1#7 ++ 2#7 ++ 3#3 ++ 1#2 ++ 1#1 ++ 4#3 ++ 7#3) = some (.stl 1 2 3 true .pk 7) := by decide
theorem test_word_aminu : decodeWord (45#6 ++ 8#7 ++ 3#7 ++ 6#4 ++ 1#1 ++ 2#3 ++ 3#2 ++ 3#2) = some (.aminu 8 3 true .cl .ar 3) := by decide
theorem test_word_strx : decodeWord (46#6 ++ 123#7 ++ 1#7 ++ 2#7 ++ 5#3 ++ 1#2) = some (.strx 123 1 2 5) := by decide
theorem test_word_strq : decodeWord (46#6 ++ 112#7 ++ 0#7 ++ 2#7 ++ 0#3 ++ 2#2) = some (.strq 112 2) := by decide
theorem test_word_cinv : decodeWord (47#6 ++ 0#4 ++ 7#3 ++ 2#7 ++ 2#12) = some (.cinv 7 2) := by decide
theorem test_word_bsnmap : decodeWord (47#6 ++ 1#7 ++ 2#7 ++ 3#7 ++ 8#5) = some (.bsnmap 1 2 3) := by decide
theorem test_word_twstep : decodeWord (47#6 ++ 1#7 ++ 2#7 ++ 17#12) = some (.twstep 1 2) := by decide
theorem test_word_vdot4 : decodeWord (49#6 ++ 1#7 ++ 2#7 ++ 3#7 ++ 24#5) = some (.vdot4 1 2 3 true) := by decide
theorem test_word_vscat : decodeWord (53#6 ++ 1#7 ++ 2#7 ++ 4#3 ++ 15#4 ++ 24#5) = some (.vscat 1 2 4 15 true) := by decide
theorem test_word_vins : decodeWord (54#6 ++ 1#7 ++ 2#7 ++ 0#3 ++ 15#4 ++ 2#5) = some (.vins 1 2 15 false) := by decide
theorem test_word_vsel : decodeWord (55#6 ++ 1#7 ++ 2#7 ++ 3#7 ++ 8#5) = some (.vsel 1 2 3) := by decide
theorem test_word_jcancel : decodeWord (56#6 ++ 1#7 ++ 2#7 ++ 3#12) = some (.jcancel 1 2) := by decide
theorem test_word_gbar : decodeWord (57#6 ++ 1#7 ++ 2#7 ++ 7#12) = some (.gbar 1 2) := by decide
theorem test_word_recvt : decodeWord (58#6 ++ 1#7 ++ 2#7 ++ 3#7 ++ 8#5) = some (.recvt 1 2 3) := by decide
theorem test_word_tcall : decodeWord (59#6 ++ 1#7 ++ 2#7 ++ 3#7 ++ 3#5) = some (.tcall 1 2 3 3) := by decide
theorem test_word_mts : decodeWord (60#6 ++ 1#7 ++ 0x104#14 ++ 1#5) = some (.mts 1 0x104) := by decide
theorem test_word_segrd : decodeWord (60#6 ++ 1#7 ++ 0#4 ++ 7#3 ++ 6#12) = some (.segrd 1 7) := by decide
theorem test_word_trap : decodeWord (60#6 ++ 0#7 ++ 0x3FFF#14 ++ 2#5) = some (.trap 0x3FFF) := by decide

/-! ### Scalar instructions: results from the rules' own words and hypotheses of the statements -/

theorem test_add_wraps : leaves (.addi 2 0 1) (sx 0 (BitVec.allOnes 64)) 2 0 = true := by decide +kernel
theorem test_mulh_signs : leaves (.mulh 2 0 1) (sx 0 (BitVec.allOnes 64)) 2 (BitVec.allOnes 64) = true := by decide +kernel
theorem test_mulhsu_signs : leaves (.mulhsu 2 1 0) (sx 0 (BitVec.allOnes 64)) 2 35 = true := by decide +kernel
theorem test_sra_amount_modulo_64 : leaves (.sra 2 0 1) (sx 1 65) 2 42 = true := by decide +kernel
theorem test_maxu : leaves (.maxu 2 0 1) (sx 0 (BitVec.allOnes 64)) 2 (BitVec.allOnes 64) = true := by decide +kernel
theorem test_max : leaves (.max 2 0 1) (sx 0 (BitVec.allOnes 64)) 2 36 = true := by decide +kernel
theorem test_hash_of_zeros : leaves (.hash 2 3 4) s0 2 0 = true := by decide +kernel
theorem test_clz_of_zero : leaves (.clz 2 3) s0 2 64 = true := by decide +kernel
theorem test_ctz : leaves (.ctz 2 0) s0 2 2 = true := by decide +kernel
theorem test_bswap : leaves (.bswap 2 0) s0 2 0x5400000000000000 = true := by decide +kernel
theorem test_sextb : leaves (.sextb 2 0) (sx 0 0x180) 2 0xFFFFFFFFFFFFFF80 = true := by decide +kernel
theorem test_sltiu_of_minus_one : leaves (.sltiu 2 0 0xFFF) s0 2 1 = true := by decide +kernel
theorem test_movh : leaves (.movh 0 3 0xBEEF) s0 0 0xBEEF000000000054 = true := by decide +kernel
theorem test_bfi : leaves (.bfi 2 0 60 3) s0 2 0x4000000000000000 = true := by decide +kernel
theorem test_bdnz_of_zero : leaves (.bdnz 2 5) s0 2 (BitVec.allOnes 64) = true := by decide +kernel
theorem test_sel_reads_condition : leaves (.sel 2 0 1) (sx 2 7) 2 84 = true := by decide +kernel
theorem test_store_to_zr_discarded : nextWith (exec (.add 127 0 1) s0) (fun s => (self s).regs == t0.regs) = true := by decide +kernel

theorem test_division_late :
    nextWith (exec (.rem 2 0 1) s0) (fun s => x s 2 == some 0 && (self s).results.length == 1 &&
      nextWith (exec (.operationResult 0 0) s) fun s => x s 2 == some 12) = true := by decide +kernel
theorem test_division_by_zero :
    nextWith (exec (.divu 2 0 3) s0) (fun s =>
      nextWith (exec (.operationResult 0 0) s) fun s => x s 2 == some (BitVec.allOnes 64)) = true := by decide +kernel

theorem issues_s0 : Issues s0 t0 := ⟨by decide +kernel, by decide +kernel⟩

/-- R190 to R198: two window sources and a window destination, and `zr` in each place. -/
theorem test_hyps_two_sources :
    Issues s0 t0 ∧ Checked [.src 0, .src 1, .dst 2] s0 ∧ Reads 0 s0 84 s0 ∧ Reads 1 s0 36 s0 ∧
      Writes 2 120 s0 (setThr s0 0 (tx 2 120)) ∧
      Checked [.src 127, .src 127, .dst 127] s0 ∧ Reads 127 s0 0 s0 ∧ Writes 127 0 s0 s0 := by
  and_intros <;> first | exact issues_s0 | exact ok_eq (by decide +kernel) | decide +kernel

/-- The forms that read d: SEL and BFI on three registers. -/
theorem test_hyps_destination_readers :
    Issues s0 t0 ∧ Checked [.src 0, .src 1, .both 2] s0 ∧ Checked [.src 0, .both 2] s0 ∧ Checked [.both 2] s0 ∧ Reads 2 s0 0 s0 ∧
      Writes 2 36 s0 (setThr s0 0 (tx 2 36)) ∧ Inserted 0 84 84 0 16 ∧ Inserted 0 84 0x5400000000000000 56 8 := by
  and_intros <;> first | exact issues_s0 | exact ok_eq (by decide +kernel) | decide +kernel | (unfold Inserted; decide +kernel)

/-- R199, R203: a branch taken and not taken; a counter of 1 and of 0. -/
theorem test_hyps_branches :
    Issues s0 t0 ∧ Checked [.src 0, .src 1] s0 ∧ Reads 0 s0 84 s0 ∧ Reads 1 s0 36 s0 ∧ (84#64 ≠ 36) ∧ Checked [.both 3] (sx 3 1) ∧
      Reads 3 (sx 3 1) 1 (sx 3 1) ∧ Writes 3 0 (sx 3 1) s0 ∧ Reads 3 s0 0 s0 ∧ Writes 3 (0 - 1) s0 (sx 3 (0 - 1)) := by
  and_intros <;> first | exact issues_s0 | exact ok_eq (by decide +kernel) | decide +kernel

theorem test_branch_taken : nextWith (exec (.bgeu 0 1 0xFFF) (setThr s0 0 { t0 with pc := 36 }))
    (fun s => (self s).pc == 32) = true := by decide +kernel
theorem test_call_links : nextWith (exec (.call 4 3) (setThr s0 0 { t0 with pc := 8 }))
    (fun s => (self s).pc == 20 && x s 4 == some 12) = true := by decide +kernel
theorem test_callr_same_register : nextWith (exec (.callr 0 0) s0) (fun s => (self s).pc == 84 && x s 0 == some 4) = true := by
  decide +kernel

theorem test_hyps_frame : Issues s0 t0 ∧ Plain t0 0 ∧ Plain t0 15 ∧ Plain t0 127 :=
  ⟨issues_s0, Or.inr (by decide +kernel), Or.inr (by decide +kernel), Or.inl rfl⟩

/-- R154, R158: registers 15 and 16 of a window of 16, with each field the first that is outside. -/
theorem test_hyps_window : Issues s0 t0 ∧ ((16#7).toNat < 112 ∧ t0.regs.length ≤ (16#7).toNat) ∧
    ¬ ((15#7).toNat < 112 ∧ t0.regs.length ≤ (15#7).toNat) := ⟨issues_s0, by decide +kernel, by decide +kernel⟩
theorem test_window_trap : trapsWith (.add 2 16 0) s0 0x02 = true ∧ trapsWith (.add 2 0 111) s0 0x02 = true ∧
    trapsWith (.add 16 0 1) s0 0x02 = true ∧ leaves (.add 15 0 1) s0 15 120 = true := by decide +kernel

/-- States in which each special operand reads or takes a value (R83, R84, R185, R186). -/
def sQueues : State := setThr s0 0 { t0 with qu := { ld := [{ tx := 0, val := some 7 }], sd := [], addrs := [] } }
def sInbox : State := modCore s0 0 fun c => { c with inbox := [0x2000000000000005, 1] }
def sStream (esz cnt : Nat) : State := setThr s0 0 { t0 with
  streams := [(0, { kind := .read, esz := esz, sg := 0, cnt := cnt, stride := 4, job := 0, next := 4, elems := [.here 0xFFFFFFFF], held := [] })] }
/-- A thread whose instruction has popped an inbox entry and then parked (R155). -/
def sKept : State := setThr s0 0 { t0 with kept := [(126, 7)] }

theorem test_hyps_operand_forms :
    thr sQueues sQueues.cur ≠ none ∧ t0.kept = [] ∧ (self sKept).kept = [(126, 7)] ∧ (queuesOf (self sQueues) .u).ld = [{ tx := 0, val := some 7 }] ∧
    (queuesOf (self sQueues) .u).addrs = [] ∧ (Machine.core sInbox 0).inbox = [0x2000000000000005, 1] ∧
    (Machine.core sInbox 0).ibWait = [] ∧ (Machine.core sInbox 0).inboxOver = [] ∧ fld 0x2000000000000005 63 60 ≠ 1 ∧
    (find (self (sStream 1 1)).streams 0).map (fun st => (st.kind, st.elems, st.cnt)) = some (.read, [.here 0xFFFFFFFF], 1) ∧
    (find (self (sStream 0 2)).streams 0).map (fun st => (st.kind, st.elems, st.cnt)) = some (.read, [.here 0xFFFFFFFF], 2) := by
  decide +kernel

theorem test_pops : leaves (.add 2 124 127) sQueues 2 7 = true ∧ leaves (.add 2 126 127) sInbox 2 0x2000000000000005 = true ∧
    leaves (.add 2 126 127) sKept 2 7 = true ∧
    leaves (.add 2 112 127) (sStream 1 1) 2 (BitVec.allOnes 64) = true ∧ leaves (.add 2 112 127) (sStream 0 2) 2 0xFFFFFFFF = true := by
  decide +kernel

/-- R20, R23: the word at the last aligned address of the code segment's limit. -/
def sCode : State := State.withFetchWord (setThr s0 0 { t0 with pc := 0x3FFFC }) 32 0x04100026
theorem test_hyps_step :
    sCode.picks = [.issue 0] ∧ sCode.pkg.stopped = false ∧ (thr sCode 0).map mayIssue = some true ∧
    (thr sCode 0).map mayTrap = some false ∧ mayPick { sCode with picks := [] } 0 = true ∧
    (segOf (self sCode) 7).kind = .core ∧ bitOf (segOf (self sCode) 7).s0 57 = true ∧
    (self sCode).pc = 0x3FFFC ∧ (self sCode).landed = none ∧ absentWords sCode (corePlace 0 0x3FFFC) 4 = [] ∧
    ((linesOf (corePlace 0 0x3FFFC) 4).all fun l => !othersFirst sCode (.slot 0) l) = true ∧
    (match fetch sCode with
      | .word w _ => w == 0x04100026
      | .trap _ _ => false
      | .stop _ => false) = true := by
  decide +kernel
theorem test_step_runs_word : nextWith (step sCode) (fun s => (self s).pc == 0x40000 && (self s).results.length == 1) = true := by
  decide +kernel
theorem test_step_illegal_word :
    nextWith (step (State.withFetchWord s0 32 0)) (fun s => (self s).cause == 1 && (self s).tval == 0) = true := by decide +kernel

/-- R153, R158: a word and its instruction, both ways. -/
theorem test_hyps_encoding : Instr.wf (.div 2 0 1) = true ∧ encode (.div 2 0 1) = some 0x04100026 ∧
    decodeWord 0x04100026#32 = some (.div 2 0 1) ∧ Instr.decodedAs (.div 2 0 1) = .div 2 0 1 := by decide

/-! ### Memory instructions -/

/-- Bytes placed in storage. -/
def withBytes (s : State) (a : Nat) (bs : List Byte) : State := { s with mem := writeBytes s.mem a bs }

/-- A halfword 0x80FF at offset 2 of sg0 (CORE), loaded with and without sign. -/
theorem test_load_halfword :
    leaves (.ldh 2 15 0 1) (withBytes s0 (corePlace 0 0x1002) [0xFF, 0x80]) 2 0xFFFFFFFFFFFF80FF = true ∧
    leaves (.ldhu 2 15 0 1) (withBytes s0 (corePlace 0 0x1002) [0xFF, 0x80]) 2 0x80FF = true := by decide +kernel
theorem test_store_word :
    nextWith (exec (.stw 0 15 0 0x1FF) (sx 15 0x1000)) (fun s => readBytes s.mem (corePlace 0 0x1FFC) 5 == [84, 0, 0, 0, 0]) = true := by
  decide +kernel
theorem test_store_past_limit : trapsWith (.stw 0 15 0 0) (sx 15 0x1000) 0x14 = true := by decide +kernel
theorem test_store_misaligned : trapsWith (.stw 0 15 0 0) (sx 15 2) 0x13 = true := by decide +kernel

/-- The last word and the first byte of LANE, CORE and CLUS segments, and the offsets that name them. -/
theorem test_hyps_at_issue :
    (∀ sg ∈ [(0 : BitVec 3), 2], Passes s0 sg .load (scaled 0x1FF 4 0x1000) 4 ∧ Passes s0 sg .store (scaled 0 1 0) 1 ∧
      Passes s0 sg .atomic 0xFF8 8 ∧ atIssue (kindAt s0 sg) = true) ∧
    Passes s0 1 .load 0x1FC 4 ∧ Passes s0 1 .store 0x1F8 8 ∧ atIssue (kindAt s0 1) = true ∧
    (∀ a ∈ [placeAt s0 0 0xFFC, placeAt s0 1 0x1FC, placeAt s0 2 0], laneBusy s0 a 4 = false ∧ absentWords s0 a 4 = [] ∧
      poisoned s0 a 4 = false) ∧
    (self s0).landed = none ∧ (self s0).outs = [] ∧ (self s0).regs.length ≤ 112 ∧ Issues s0 t0 := by
  and_intros <;> first | exact issues_s0 | decide +kernel | (unfold Passes; decide +kernel)

/-- R102: a release of every scope has no wait in a state with nothing outstanding. -/
theorem test_hyps_release : ∀ c ∈ [Scope.th, .co, .cl, .di, .pk, .dm, .sy], release c s0 = .ok ((), s0) := by
  intro c h
  simp only [List.mem_cons, List.not_mem_nil, or_false] at h
  rcases h with rfl | rfl | rfl | rfl | rfl | rfl | rfl <;> exact ok_eq (by decide +kernel)

theorem test_hyps_load_store_operands :
    Checked [.src 15, .dst 2] s0 ∧ Checked [.src 15, .src 0] s0 ∧ Checked [.src 15, .both 2] s0 ∧ Checked [.src 15, .grp 2 2] s0 ∧
      Reads 15 s0 0 s0 ∧ Reads 0 s0 84 s0 ∧ Checked [.src 15] s0 := by
  and_intros <;> first | exact ok_eq (by decide +kernel) | decide +kernel

/-- R78: the kinds that are buffered, at the ends of their segments, with nothing forwarded and room in the buffer. -/
theorem test_hyps_buffered :
    (∀ sg ∈ [(3 : BitVec 3), 4, 5, 6], Passes s0 sg .load 0 1 ∧ Passes s0 sg .store 0xFF8 8 ∧ atIssue (kindAt s0 sg) = false ∧
      forward s0 s0.cur (refAt (self s0) sg.toNat 0 1) = .none) ∧
    holds (self s0) = false ∧ (Machine.core s0 (coreOf s0.cur)).sb.length < 32 := by
  unfold Passes; decide +kernel

theorem test_store_drains_to_home :
    nextWith (exec (.stw 0 15 4 0) s0) (fun s => s.mem == [] && (Machine.core s 0).sb.length == 1 && s.due == [.storeDrain 0]) = true := by
  decide +kernel

/-- R83 to R85: a thread with sixteen queue loads and sixteen unpaired addresses, and one with fifteen. -/
def sFull (n : Nat) : State := { setThr s0 0 { t0 with
  qu := { ld := List.replicate n { tx := 0, val := some 1 }, sd := [],
          addrs := List.replicate n { kind := .core, tgt := 0, addr := 0, size := 4 } } } with nextTx := 1 }
theorem test_hyps_queues :
    mayIssue (self (sFull 15)) = true ∧ (queuesOf (self (sFull 15)) .u).ld.length = 15 ∧ (queuesOf (self (sFull 15)) .u).sd = [] ∧
    (∀ e ∈ (queuesOf (self (sFull 15)) .u).ld, e.tx < (sFull 15).nextTx) ∧ 16 ≤ (queuesOf (self (sFull 16)) .u).ld.length ∧
    16 ≤ (queuesOf (self (sFull 16)) .u).addrs.length ∧ Passes (sFull 16) 0 .load (scaled 0 4 0) 4 ∧
    Passes (sFull 16) 0 .load (scaled 0 8 0) 8 ∧ Passes (sFull 16) 0 .store (scaled 0 4 0) 4 ∧ Passes (sFull 16) 0 .store (scaled 0 8 0) 8 := by
  unfold Passes; decide +kernel
theorem test_queue_order : trapsWith (.ldqw 2 0 0) (sFull 16) 0x19 = true ∧ trapsWith (.stqd 2 0 0) (sFull 16) 0x19 = true ∧
    nextWith (exec (.ldqw 2 0 0) (sFull 15)) (fun s => (queuesOf (self s) .u).ld.length == 16) = true := by decide +kernel

/-- AADD.W answers the old word sign-extended and adds modulo 2^32; ACAS that compares unequal writes nothing. -/
theorem test_atomic_add :
    nextWith (exec (.aadd 0 15 false .th .plain 0) (withBytes s0 (corePlace 0 0x1000) [0xFE, 0xFF, 0xFF, 0xFF]))
      (fun s => x s 0 == some 0xFFFFFFFFFFFFFFFE && readBytes s.mem (corePlace 0 0x1000) 4 == [82, 0, 0, 0]) = true := by decide +kernel
theorem test_cas_unequal :
    nextWith (exec (.acas 0 15 true .th .plain 0) (withBytes s0 (corePlace 0 0x1000) [83]))
      (fun s => x s 0 == some 83 && readBytes s.mem (corePlace 0 0x1000) 1 == [83]) = true := by decide +kernel

/-- R102: a thread with a load outstanding. -/
def sOut : State := setThr s0 0 { t0 with outs :=
  [{ tx := 0, dest := .x 2 4 true, pc := 0, va := 0, pieces := [], atom := false, dieLocal := false, acq := false }] }
theorem test_hyps_fence :
    thr sOut 0 = some (self sOut) ∧ mayIssue (self sOut) = true ∧ (self sOut).status = .ready ∧ (self sOut).outs ≠ [] ∧
    (∀ o ∈ (self sOut).outs, o.acq = false) ∧ dirtyLines sOut 0 (fun _ => true) = [] ∧ WideQuiet s0 t0 ∧
    wideScope .cl = true ∧ wideScope .sy = true ∧ t0.hostPending = [] ∧ t0.status = .ready := by
  unfold WideQuiet CoreQuiet ThreadQuiet
  decide +kernel
theorem test_fence_goes_on : ∀ c ∈ [Scope.th, .co, .cl, .di, .pk, .dm, .sy],
    nextWith (exec (.fence c) s0) (fun s => (self s).pc == 4) = true := by decide +kernel
theorem test_fence_waits : nextWith (exec (.fence .th) sOut) (fun s => (self s).status == .wait .retry && (self s).pc == 0) = true := by
  decide +kernel

/-! ### Vector instructions -/

/-- Lanes of a vector register set. -/
def withV (s : State) (v : Nat) (f : Nat → Lane) : State :=
  writeWords s (laneWrites 0 (self s) v ((List.range 16).map fun l => (l, f l)))

/-- v0 = lane numbers, v1 = 100 in every lane, vp = lanes 0 and 15. -/
def sv : State := withV (withV (setThr s0 0 { t0 with vp := 0x8001 }) 0 fun l => BitVec.ofNat 32 l) 1 fun _ => 100
def tv : Thread := { t0 with vp := 0x8001 }

/-- Lane l of v[n] after an instruction. -/
def lane (s : State) (n l : Nat) : Lane := laneAt s 0 (self s) (BitVec.ofNat 7 n) l

theorem test_vsub_lanes : nextWith (exec (.vsubI32 2 0 1 true) sv) (fun s => lane s 2 15 == 0xFFFFFFAB && lane s 2 14 == 0) = true := by
  decide +kernel
theorem test_vdot4_adds_products :
    nextWith (exec (.vdot4 2 0 1 false) (withV (withV sv 0 fun _ => 0xFF010203) 1 fun _ => 0x02010101)) (fun s => lane s 2 3 == 4) = true := by
  decide +kernel
theorem test_vfma_f32 :
    nextWith (exec (.vfmaF32 2 0 1 false) (withV (withV (withV sv 0 fun _ => 0x40000000) 1 fun _ => 0x40400000) 2 fun _ => 0x3F800000))
      (fun s => lane s 2 0 == 0x3F800000 && nextWith (exec (.operationResult 0 0) s) fun s => lane s 2 0 == 0x40E00000) = true := by
  decide +kernel
theorem test_vredadd_tree :
    nextWith (exec (.vredaddI32 2 0 false) sv) (fun s => nextWith (exec (.operationResult 0 0) s) fun s => x s 2 == some 120) = true := by
  decide +kernel
theorem test_vred_no_lane :
    nextWith (exec (.vredmaxI32 2 0 true) (setThr sv 0 { tv with vp := 0 }))
      (fun s => nextWith (exec (.operationResult 0 0) s) fun s => x s 2 == some 0xFFFFFFFF80000000) = true := by decide +kernel
theorem test_vscan_active_lanes :
    nextWith (exec (.vscanI32 2 0 true) sv)
      (fun s => nextWith (exec (.operationResult 0 0) s) fun s => lane s 2 15 == 15 && lane s 2 14 == 0) = true := by decide +kernel
theorem test_vcmpun : nextWith (exec (.vcmpunF32 0 1 false) (withV sv 0 fun l => if l = 7 then 0x7FC00001 else 0))
    (fun s => (self s).vp == 0x80) = true := by decide +kernel
theorem test_vrot : nextWith (exec (.vrot 2 0 1 false) sv) (fun s => lane s 2 0 == 1 && lane s 2 15 == 0) = true := by decide +kernel
theorem test_vextr_sign : leaves (.vextr 2 0 3) (withV sv 0 fun _ => 0x80000000) 2 0xFFFFFFFF80000000 = true := by decide +kernel
theorem test_vcvt_e4m3_saturation :
    nextWith (exec (.vcvtF32E4m3 2 0 0 false) (withV sv 0 fun _ => 0x7E))
      (fun s => nextWith (exec (.operationResult 0 0) s) fun s => lane s 2 0 == 0x43E00000) = true := by decide +kernel
theorem test_vst_highest_lane :
    nextWith (exec (.vscat 0 15 0 1 false) (withV sv 1 fun _ => 0)) (fun s => readBytes s.mem (corePlace 0 0x1000) 4 == [15, 0, 0, 0]) = true := by
  decide +kernel

theorem test_hyps_vector_operands :
    Issues sv tv ∧ Checked [.vec 0, .vec 1, .vec 2] sv ∧ Checked [.vec 0, .dst 2] sv ∧ Checked [.vec 0, .dst 127] sv ∧
      Checked [.vec 0, .vec 7] sv ∧ Checked [.src 0, .vec 2] sv ∧ Checked [.dst 2] sv ∧ Checked [.src 0] sv ∧ Reads 0 sv 84 sv ∧
      Writes 2 0x8001 sv (setThr sv 0 { tv with regs := tv.regs.set 2 0x8001 }) ∧ Active tv true 15 ∧ ¬ Active tv true 14 := by
  and_intros <;> first | exact ok_eq (by decide +kernel) | exact ⟨by decide +kernel, by decide +kernel⟩ | decide +kernel | (unfold Active; decide +kernel)

/-- A state with vp = lanes 0 and 15 and nothing in storage. -/
def sp : State := setThr s0 0 tv

/-- R244 to R246: the last words of a segment at issue (CORE), predicated or not, by stride and by index. -/
theorem test_hyps_vector_memory :
    Checked [.src 0, .vec 2] sp ∧ Checked [.src 0, .src 3, .vec 2] sp ∧ Checked [.src 0, .vec 1, .vec 2] sp ∧
    Reads 3 sp 0 sp ∧ LanesPass sp 0 .vload (fun l => 0xFC0 + BitVec.ofNat 64 (4 * l)) false ∧
    LanesPass sp 0 .vstore (fun l => 0xFC0 + BitVec.ofNat 64 (4 * l)) true ∧ LanesPass sp 1 .vload (fun _ => 0x1FC) true ∧ (self sp).outs = [] := by
  and_intros <;> first | exact ok_eq (by decide +kernel) | decide +kernel | (simp only [Active, Passes, Touchable]; decide +kernel)

theorem test_hyps_vector_buffered :
    kindAt sp 3 = .chip ∧ kindAt sp 4 = .glob ∧ (∃ l < 16, Active (self sp) false l) ∧
    (∀ l < 16, Active (self sp) false l → Passes sp 3 .vstore (0xFC0 + BitVec.ofNat 64 (4 * l)) 4 ∧
      Passes sp 3 .vload (0xFC0 + BitVec.ofNat 64 (4 * l)) 4 ∧
      forward sp 0 { refAt (self sp) 3 (0xFC0 + BitVec.ofNat 64 (4 * l)) 4 with lanes := [(l, 0, 0xFC0 + BitVec.ofNat 64 (4 * l))] } = .none) ∧
    holds (self sp) = false ∧ (Machine.core sp 0).sb.length ≤ 30 := by
  unfold Active Passes; decide +kernel

/-- R249: the compares' operands; R247: a lane number of an insert, active and not. -/
theorem test_hyps_vector_compare : Checked [.vec 0, .vec 1] sv ∧ Checked [.vec 0, .vec 1] s0 :=
  ⟨ok_eq (by decide +kernel), ok_eq (by decide +kernel)⟩

/-! ### Streams, caches, basins and towlines -/

/-- A copy job of core 0 with c0 as given and a descriptor word that makes its destination elements 4 bytes. -/
def job (id : Nat) (c0 : Word) : Job := newJob id 0 0 0 c0 0 0 0 []
def withJobs (s : State) (js : List Job) : State := modCluster s 0 fun x => { x with jobs := js, jobCtr := js.length }
def copyJob (id : Nat) : Job := { job id 0x410 with desc := [0x0050000000000000, 0, 0, 0], st := .running }
def sCopy : State := withJobs s0 [copyJob 1]

/-- A thread without streams meets what a new stream asks of the entry. -/
theorem noStream (s : State) (h : (self s).streams = []) :
    ∀ o, find (self s).streams 0 = some o → o.held = [] ∧ o.kind ≠ .arrival := by
  intro o ho
  rw [h] at ho
  cases ho

/-- Three words that bind a stream and four that do not. -/
theorem streamWords :
    (StreamWord 0x2000FFFFFFFFFFF8 ∧ StreamWord 0x0000000001800004 ∧ StreamWord 0x1000000001000004) ∧
      ¬ StreamWord 0x3000000001000004 ∧ ¬ StreamWord 0x0000000000000004 ∧ ¬ StreamWord 0x2000000001000004 ∧
        ¬ StreamWord 0x0001000001000004 := by
  refine ⟨⟨?_, ?_, ?_⟩, ?_, ?_, ?_, ?_⟩ <;> unfold StreamWord <;> decide +kernel

/-- R217: the ends of CNT, ESZ and STRIDE, and a word wrong in each field. -/
theorem test_hyps_streams :
    Issues s0 t0 ∧ Checked [.src 0, .src 1] s0 ∧ Checked [.src 1] s0 ∧ StreamWord 0x2000FFFFFFFFFFF8 ∧ StreamWord 0x0000000001800004 ∧
    StreamWord 0x1000000001000004 ∧ ¬ StreamWord 0x3000000001000004 ∧ ¬ StreamWord 0x0000000000000004 ∧ ¬ StreamWord 0x2000000001000004 ∧
    ¬ StreamWord 0x0001000001000004 ∧ addrTrap s0 (self s0) 0 .load 0 0 1 = none ∧ addrTrap s0 (self s0) 4 .store 0 0 1 = none ∧
    (∀ o, find (self s0).streams 0 = some o → o.held = [] ∧ o.kind ≠ .arrival) :=
  ⟨issues_s0, ok_eq (by decide +kernel), ok_eq (by decide +kernel), streamWords.1.1, streamWords.1.2.1, streamWords.1.2.2,
    streamWords.2.1, streamWords.2.2.1, streamWords.2.2.2.1, streamWords.2.2.2.2,
    by decide +kernel, by decide +kernel, noStream s0 (by decide +kernel)⟩

theorem test_hyps_arrival_stream :
    knownJob sCopy 0 1 = some (copyJob 1) ∧ jobUnit (copyJob 1) = 1 ∧ bitOf (copyJob 1).c0 10 = true ∧ (copyJob 1).bound = false ∧
    destSize sCopy 0 (copyJob 1) = some 4 ∧ find (self sCopy).streams 0 = none ∧ knownJob sCopy 0 2 = none := by decide +kernel

/-- R185: a read stream of two elements that holds one asks for the second, at NEXT + STRIDE, and for no third. -/
theorem test_read_ahead :
    ((find (self (readAhead (sStream 1 2) 0 0)).streams 0).map fun st => st.elems) = some [.here 0xFFFFFFFF, .here 0] ∧
    ((find (self (readAhead (sStream 1 1) 0 0)).streams 0).map fun st => st.elems) = some [.here 0xFFFFFFFF] := by
  decide +kernel

theorem test_stream_argument : trapsWith (.strm 112 0 1 0) s0 0x1D = true ∧
    nextWith (exec (.strm 112 15 1 0) (sx 1 0x1000004)) (fun s => ((find (self s).streams 0).map fun st => st.cnt) == some 1) = true := by
  decide +kernel

/-- A basin over lines 32 and 33 of core 0's scratchpad: DIRTY word 0 of the first. -/
def aBasin : Basin := { st := .active, clus := false, cf := false, ow := false, sf := false, gva := 0x10000, sbase := 0x1000, len := 256 }
def aTag (v dm : BitVec 32) : LineTag := { bn := 0, fp := false, reg := false, v := v, dm := dm, sent := 0, probed := 0, tow := none }
def sBasin : State := modCore s0 0 fun c => { c with basins := [(0, aBasin)], tags := [(32, aTag 3 1), (33, aTag 0 0)] }

theorem test_hyps_cache_maintenance :
    Checked [.src 15] s0 ∧ Reads 15 s0 0 s0 ∧ ¬ Passes s0 0 .load 0x1000 1 ∧ (∀ sg ∈ [(0 : BitVec 3), 1, 2, 3, 4, 5, 6, 7], Passes s0 sg .load 0 1) ∧
    (self s0).outs.any (fun o => o.acq) = false ∧ holds (self s0) = false ∧
    tagAt sBasin (corePlace 0 0x1000) = some (0, false, 32, aTag 3 1) ∧ tagAt sBasin (corePlace 0 0x1080) = some (0, false, 33, aTag 0 0) ∧
    tagAt sBasin (corePlace 0 0x1100) = none ∧ (basin sBasin 0 0).map (·.st) = some .active ∧
    (aTag 3 1).dm &&& ~~~ (aTag 3 1).sent ≠ 0 ∧ (aTag 0 0).dm &&& ~~~ (aTag 0 0).sent = 0 := by
  and_intros <;> first | exact ok_eq (by decide +kernel) | decide +kernel | (unfold Passes; decide +kernel)
theorem test_cinv_keeps_dirty : nextWith (exec (.cinv 0 15) sBasin)
    (fun s => ((find (Machine.core s 0).tags 32).map fun t => (t.v, t.dm)) == some (1, 1)) = true := by decide +kernel

/-- R72: map words for descriptor 1, one that overlaps and one that does not, and the descriptor in use. -/
def mapWord (bn off len : Nat) : Word := word (0 * 2 ^ 61 + 4 * 2 ^ 58 + bn * 2 ^ 54 + off * 2 ^ 21 + len)
def sMap (bn off : Nat) : State := setThr sBasin 0 { t0 with regs := [mapWord bn off 128, 0x1000] ++ List.replicate 14 0 }
theorem test_hyps_basins :
    Checked [.grp 0 1, .grp 1 1, .dst 2] (sMap 1 0x100) ∧ MapPasses (sMap 1 0x100) (argOf (sMap 1 0x100) 0 0) (argOf (sMap 1 0x100) 1 0) ∧
    MapPasses (sMap 1 0xF80) (argOf (sMap 1 0xF80) 0 0) (argOf (sMap 1 0xF80) 1 0) ∧
    stateOf (sMap 0 0) 0 0 = .active ∧ stateOf (sMap 1 0) 0 1 = .free ∧
    basinOverlap (sMap 1 0x80) 0 (mapped (sMap 1 0x80) (argOf (sMap 1 0x80) 0 0) 0x1000) = true ∧
    basinOverlap (sMap 1 0x100) 0 (mapped (sMap 1 0x100) (argOf (sMap 1 0x100) 0 0) 0x1000) = false ∧
    Checked [.grp 3 1, .dst 2] sBasin ∧ fld (argOf sBasin 3 0) 63 4 = 0 ∧
    dirtyLines sBasin 0 (fun bn => bitOf (1 : Word) bn && decide (stateOf sBasin 0 bn = .active)) ≠ [] ∧
    dirtyLines sBasin 0 (fun bn => bitOf (0 : Word) bn && decide (stateOf sBasin 0 bn = .active)) = [] ∧
    (Machine.core (dropBasin sBasin 0 0 true (some 0)) 0).wbs.any (fun w => w.bn == 0) = true ∧
    (Machine.core (dropBasin sBasin 0 0 false (some 0)) 0).wbs.any (fun w => w.bn == 0) = false ∧
    (Machine.core sBasin 0).tags.length ≤ 2048 + 8192 := by
  and_intros <;> first | exact ok_eq (by decide +kernel) | decide +kernel | (unfold MapPasses; decide +kernel)
theorem test_bsnmap_results : leaves (.bsnmap 2 0 1) (sMap 0 0x100) 2 1 = true ∧ leaves (.bsnmap 2 0 1) (sMap 1 0x80) 2 2 = true ∧
    leaves (.bsnmap 2 0 1) (sMap 1 0x100) 2 0 = true := by decide +kernel

/-- A towline block in the scratchpad: one range of 128 bytes, cluster 0; handle 3 in use, idle. -/
def aTow : Tow := { st := .idle, rp := false, part := false, dep := false, thr := 0, step := 0, cid := 1, flotilla := 1, clusters := [0],
                    ranges := [(0x10000, 128)], last := (0, 0, 0), cum := (0, 0, 0), sum := (0, 0, 0), pending := 0 }
def towWords : List Nat := [1, 1, 0, 0, 0, 0x8000000000000000, 128]
/-- A flotilla of partition 1 on cluster 0. -/
def aLaunch : Launch := { id := 1, desc := List.replicate 16 0, threads := [], block := [], read := true }
def aFlotilla : Flotilla :=
  { cid := 1, launch := aLaunch, clusters := [0], tree := none, term := false, sf := false, suspended := false, next := none, entries := [],
    shares := [], sluices := [] }
def sTow : State :=
  let s := withBytes s0 (corePlace 0 0x1000) (towWords.flatMap fun w => leBytes 8 w)
  let s := setThr s 0 { t0 with flotilla := 1, regs := [0x100, 0, 3, 3] ++ List.replicate 12 0 }
  setTow { s with flotillas := [(1, aFlotilla)] } 3 aTow
def towBlk : List Word := (towWords.map word) ++ List.replicate 14 0

theorem test_hyps_towline_record :
    Checked [.grp 0 1, .grp 1 1, .dst 4] sTow ∧ Checked [.grp 2 1, .dst 4] sTow ∧ fld (argOf sTow 0 0) 60 9 = 0 ∧
    ok (readBlock (fld (argOf sTow 0 0) 63 61) (argOf sTow 1 0) 21 sTow) towBlk sTow = true ∧ fld (towBlk.getD 0 0) 63 48 = 0 ∧
    fld (towBlk.getD 0 0) 31 4 = 0 ∧ fld (towBlk.getD 0 0) 3 0 = 1 ∧ badSet towBlk (flotillaClusters sTow (self sTow)) = none ∧
    ok (blockRanges towBlk 1 sTow) [(0x10000, 128)] sTow = true ∧ bitOf (argOf sTow 0 0) 8 = true ∧ fld (argOf sTow 0 0) 7 0 = 0 ∧
    lowestFree (die sTow 0).tows 64 = some 0 ∧ portStatus sTow [0] [(0x10000, 128)] 0 = 0 ∧
    portStatus (setTow sTow 3 { aTow with st := .armed }) [0] [(0x10000, 128)] 0 = 3 :=
  ⟨ok_eq (by decide +kernel), ok_eq (by decide +kernel), by decide +kernel⟩
theorem test_hyps_towline :
    HandleWord sTow 2 3 ∧ (towFor sTow 1 3 = some aTow ∧ cidOf sTow 0 = 1 ∧ aTow.pending = 0) ∧ towFor sTow 1 4 = none ∧
    bitOf (argOf sTow 3 0) 8 = false ∧ fld (argOf sTow 3 0) 7 0 = 3 ∧
    lowestFree (die (modDie sTow 0 fun d => { d with tows := (List.range 64).map fun k => (k, aTow) }) 0).tows 64 = none ∧
    aTow.st = .idle ∧ TowSt.recording ≠ .idle := by
  and_intros <;> first | decide +kernel | (unfold HandleWord; decide +kernel)
theorem test_twend_unknown : leaves (.twend 4 2) (setThr sTow 0 { t0 with regs := [0, 0, 7] ++ List.replicate 13 0 }) 4 0x0400000000000007 = true := by
  decide +kernel

/-! ### Traps, returns, registers and segments -/

def atLevel (l : Level) : Thread := { t0 with level := l, tvec := 0x400 }
def sl (l : Level) : State := setThr s0 0 (atLevel l)
/-- A thread in S that is in its handler with a trap pending. -/
def sPend : State := setThr s0 0 { atLevel .s with inh := true, tpc := 0x20, pend := [{ cause := 0x16, tval := 1, tadr := 8, store := false }] }

theorem test_hyps_traps :
    thr (sl .u) 0 = some (atLevel .u) ∧ (atLevel .u).inh = false ∧ thr (sl .m) 0 = some (atLevel .m) ∧ (self sPend).inh = true ∧
    mayIssue (self sPend) = true ∧ (self sPend).level = .s ∧ (self sPend).pend = [{ cause := 0x16, tval := 1, tadr := 8, store := false }] ∧
    mayIssue (atLevel .s) = true ∧ (atLevel .s).pend = [] ∧ (atLevel .s).level ≠ .u ∧ mayIssue (atLevel .m) = true := by decide +kernel
theorem test_trap_entry : nextWith (exec (.trap 0x3FFF) (sl .u)) (fun s =>
    (self s).cause == 6 && (self s).tval == 0x3FFF && (self s).tpc == 4 && (self s).pc == 0x400 && (self s).level == .s && (self s).inh) = true := by
  decide +kernel
theorem test_eret_pending : nextWith (exec .eret sPend) (fun s =>
    (self s).cause == 0x116 && (self s).tpc == 0x20 && (self s).pc == 0x400 && (self s).inh) = true := by decide +kernel
theorem test_eret_in_user : trapsWith .eret (sl .u) 3 = true := by decide +kernel
theorem test_double_trap_ends : nextWith (exec (.trap 0) (setThr (sl .u) 0 { atLevel .u with inh := true }))
    (fun s => (thr s 0).isNone) = true := by decide +kernel

theorem test_hyps_registers :
    mayIssue (atLevel .u) = true ∧ mayIssue (atLevel .s) = true ∧ mayIssue (atLevel .m) = true ∧
    readable 0x000 = true ∧ readable 0x00C = true ∧ readable 0x01C = true ∧ readable 0x022 = true ∧ readable 0x104 = true ∧
    readLevel 0x00C ≤ levelCode .u ∧ levelCode .u < readLevel 0x000 ∧ readLevel 0x000 ≤ levelCode .s ∧ levelCode .s < readLevel 0x100 ∧
    readLevel 0x104 ≤ levelCode .m := by decide +kernel
theorem test_hyps_register_operands : Checked [.dst 2] (sl .u) ∧ Checked [.src 2] (sl .s) ∧ Checked [.src 127] (sl .m) ∧
    Reads 2 (sl .s) 0 (sl .s) ∧ Writes 2 7 (sl .u) (setThr (sl .u) 0 { atLevel .u with regs := t0.regs.set 2 7 }) := by
  and_intros <;> first | exact ok_eq (by decide +kernel) | decide +kernel

/-- The values at the ends of what each checked register takes: a window of 8 and of 112 with 0 and 128 lanes, 64 local
members, the largest and smallest table area, a journal entry that is refused. -/
def jEntry (ref : Bool) (code : Nat) : JEntry :=
  { ref := ref, code := code, size := 3, kind := .glob, tgt := 0, seq := 1, addr := 0x10000, data := 5, swid := 9, slot := 0,
    dieLocal := none, reported := true }
def sRef : State := modCore (sl .s) 0 fun c => { c with journal := [(3, jEntry true 2)] }
def sTwo : State :=
  { sl .s with flotillas := [(1, aFlotilla), (2, { aFlotilla with launch := { aLaunch with id := 2 }, suspended := true })] }
theorem test_hyps_register_values :
    aligned s0 0xFFFFFFFFFFFFFFFC ∧ ¬ aligned s0 2 ∧ (fld (4 : Word) 3 2 ≤ levelCode .s ∧ fld (4 : Word) 3 2 ≠ 3) ∧ ¬ fld (8 : Word) 3 2 ≤ levelCode .s ∧
    (fld (0x8070 : Word) 6 0 = 112 ∧ fld (0x8070 : Word) 15 8 = 128) ∧ ¬ 8 ≤ fld (0 : Word) 6 0 ∧
    slcOk s0 0 0x40 = true ∧ slcOk s0 0 0x41 = false ∧ fld (20 : Word) 5 0 = 20 ∧ fld (36 : Word) 5 0 = 36 ∧ ¬ fld (37 : Word) 5 0 ≤ 36 ∧
    find (Machine.core sRef 0).journal (fld (3 : Word) 4 0) = some (jEntry true 2) ∧ find (Machine.core sRef 0).journal 4 = none ∧
    (cluster (sl .s) (fld (0x20001 : Word) 23 16)).cid ≠ cidOf (sl .s) 0 ∧ (cluster (sl .s) (fld (1 : Word) 23 16)).cid = cidOf (sl .s) 0 ∧
    requestChange (sl .s) 0 0 = none ∧ (requestChange sTwo 0 0x100000002).isSome = true := by
  unfold aligned
  and_intros <;> decide +kernel
theorem test_mts_values : trapsWith (.mts 2 0x000) (setThr s0 0 { atLevel .s with regs := t0.regs.set 2 2 }) 5 = true ∧
    trapsWith (.mts 2 0x100) (sl .s) 3 = true ∧ leaves (.mfs 2 0x005) (sl .u) 2 0 = true ∧ trapsWith (.mfs 2 0x000) (sl .u) 3 = true := by
  decide +kernel

/-- R17, R18: descriptors at the ends of what SEGLD takes, and one wrong in each word; requests of PINV. -/
def sPinv (l : Level) (w v : Word) : State := setThr s0 0 { atLevel l with regs := [w, v] ++ List.replicate 14 0 }
theorem test_hyps_segments :
    SegWord0 0 ∧ SegWord0 (word (31 * 2 ^ 55 + 7 * 2 ^ 52 + 8)) ∧ ¬ SegWord0 1 ∧ ¬ SegWord0 (word (2 ^ 55)) ∧
    SegWord1 (word (7 * 2 ^ 52)) (word (63 * 2 ^ 52)) ∧ ¬ SegWord1 (word (7 * 2 ^ 52)) (word (64 * 2 ^ 52)) ∧
    SegWord1 (word (2 * 2 ^ 52)) (word (2 ^ 18)) ∧ ¬ SegWord1 (word (2 * 2 ^ 52 + 8)) (word (2 ^ 18)) ∧
    PinvWord (word (2 ^ 62 + 1)) 0 ∧ PinvWord (word (2 ^ 63 + 2 ^ 60)) (BitVec.allOnes 64) ∧ ¬ PinvWord 0 0 ∧ ¬ PinvWord (word (2 ^ 62)) (word (2 ^ 52)) ∧
    fld (word (2 ^ 62 + 1)) 11 0 = cidOf (sPinv .s 0 0) 0 ∧ fld (word (2 ^ 62)) 11 0 ≠ cidOf (sPinv .s 0 0) 0 := by
  unfold SegWord0 SegWord1 PinvWord
  and_intros <;> decide +kernel
theorem test_hyps_segment_operands : Checked [.grp 0 2] (sl .s) ∧ Checked [.grp 14 2] s0 ∧ Checked [.src 0, .src 1, .dst 2] (sPinv .s 1 0) ∧
    Reads 0 (sPinv .s 1 0) 1 (sPinv .s 1 0) ∧ release .pk (sPinv .s 1 0) = .ok ((), sPinv .s 1 0) := by
  and_intros <;> first | exact ok_eq (by decide +kernel) | decide +kernel
theorem test_segld_format : trapsWith (.segld 3 0) (sPinv .s 1 0) 8 = true ∧ trapsWith (.segld 3 0) (sPinv .u 0 0) 3 = true ∧
    nextWith (exec (.segld 3 0) (sPinv .s 0 0)) (fun s => (segOf (self s) 3).kind == .null) = true := by decide +kernel

/-! ### Threads, groups, messages, tables and jobs -/

def sr (rs : List Word) : State := setThr s0 0 { t0 with regs := rs ++ List.replicate (16 - rs.length) 0 }
/-- A launch descriptor of one cluster and one thread with the smallest windows. -/
def aDesc : List Word := [word (2 ^ 52 + 2 ^ 24), 0, 0, 0, 0, 0x00080008] ++ List.replicate 10 0
def sDesc : State :=
  let s := withBytes s0 (corePlace 0 0x1000) (aDesc.flatMap fun w => leBytes 8 w.toNat)
  { s with parts := [(1, { newPart [] with clusters := [0] })] }
def fullQueue : State := { sDesc with parts := [(1, { newPart [] with clusters := [0], queues := [(0, List.replicate 256 aLaunch)] })] }

theorem test_hyps_thread_operands :
    Checked [.grp 0 4, .grp 4 2, .dst 6] (sr [1, 2, 3, 4, 0x900000007, 0x40]) ∧ fld (argOf (sr [1, 2, 3, 4, 0x900000007, 0x40]) 4 0) 31 11 = 0 ∧
    (cluster s0 (clusterOf 0)).acc.getLsbD (clusterOf 7) = true ∧ (cluster State.reset 0).acc.getLsbD (clusterOf 8) = false ∧
    SpawnScope 0 0 .co ∧ SpawnScope 0 7 .cl ∧ SpawnScope 0 511 .di ∧ SpawnScope 0 512 .pk ∧
    (self s0).wakeBit = false ∧ Checked [.src 0] s0 ∧ Checked [.dst 2] s0 ∧ Checked [.src 0, .dst 2] s0 ∧ Reads 15 s0 0 s0 ∧
    t0.handler = none ∧ t0.groups = [] ∧ t0.frames = [] ∧ t0.cursors = [] ∧ t0.streams = [] ∧ find s0.flotillas t0.flotilla = none ∧
    .slotLending s0.cur ∉ s0.due := by
  and_intros <;> first | exact ok_eq (by decide +kernel) | decide +kernel | rfl

/-- R290: the three kinds of wake, with a thread there, without one, and outside the access set. -/
theorem test_hyps_wake :
    fld (0 : Word) 63 62 = 0 ∧ fld (0x1FFFF : Word) 31 17 = 0 ∧ thr s0 0 = some t0 ∧ cidOf s0 (coreOf 0) = 1 ∧ thr s0 0x1FFFF = none ∧
    fld (0x4000000000000009 : Word) 63 62 = 1 ∧ fld (0x4000000000000009 : Word) 61 32 = 0 ∧ (wakeSwids s0 1 9).2 = true ∧ (wakeSwids s0 1 8).2 = false ∧
    fld (0x8000000000000009 : Word) 63 62 = 2 ∧ (atLevel .s).level ≠ .u := by decide +kernel

theorem test_hyps_launch_instruction :
    ok (readBlock (fld (0 : Word) 63 61) (word (fld (0 : Word) 51 0)) 16 sDesc) aDesc sDesc = true ∧ descBad aDesc = none ∧
    descBad (aDesc.set 0 0) = some 0 ∧ descBad (aDesc.set 15 1) = some 15 ∧ (enterLaunch sDesc 1 aDesc).map Prod.snd = some 1 ∧
    (enterLaunch fullQueue 1 aDesc).isNone = true ∧ ok (release .pk sDesc) () sDesc = true := by decide +kernel
theorem test_flaunch : leaves (.flaunch 2 15) sDesc 2 1 = true ∧ leaves (.flaunch 2 15) fullQueue 2 0x0100000000000000 = true := by
  decide +kernel
theorem test_tid : leaves (.tid 2) s0 2 0x900000000 = true := by decide +kernel
theorem test_sleep_takes_wake : nextWith (exec (.sleep 15) (setThr s0 0 { t0 with wakeBit := true })) (fun s => !(self s).wakeBit && (self s).pc == 4) = true := by
  decide +kernel
theorem test_spawn_waits : nextWith (exec (.spawn 6 0 4) (sr [1, 2, 3, 4, 0x900000007, 0x40]))
    (fun s => (self s).status == .wait (.spawn 6) && s.due.length == 1) = true := by decide +kernel

/-- Group 5 of partition 1 with two members, the thread one of them; group 6 of partition 2. -/
def sGroup (mine : List Nat) (mc ac : Nat) : State :=
  setGroup (setGroup (setThr s0 0 { t0 with groups := mine, regs := [5, 6] ++ List.replicate 14 0 }) 5 { cid := 1, mc := mc, ac := ac, gen := 0xFFFF }) 6
    { cid := 2, mc := 1, ac := 0, gen := 0 }
theorem test_hyps_groups :
    (sGroup [5] 2 0).cur = 0 ∧ (self (sGroup [5] 2 0)).groups.contains 5 = true ∧ (self (sGroup [] 2 0)).groups.contains 5 = false ∧
    4 ≤ (self (sGroup [1, 2, 3, 4] 2 0)).groups.length ∧ (self (sGroup [1, 2, 3] 2 0)).groups.length < 4 ∧
    groupRec (sGroup [] 2 0) 5 = some { cid := 1, mc := 2, ac := 0, gen := 0xFFFF } ∧ groupRec (sGroup [] 2 1) 5 = some { cid := 1, mc := 2, ac := 1, gen := 0xFFFF } ∧
    groupRec (sGroup [] 2 0) 6 = some { cid := 2, mc := 1, ac := 0, gen := 0 } ∧ groupRec (sGroup [] 2 0) 7 = none ∧
    cidOf (sGroup [] 2 0) 0 = 1 ∧ fld (0x3FFF : Word) 63 14 = 0 ∧ fld (0x63FFF : Word) 63 19 = 0 ∧ fld (0x60005 : Word) 18 16 ≠ 7 ∧ fld (0x60005 : Word) 15 14 = 0 ∧
    (1 + 1 = 2 ∧ 0 + 1 ≠ 2) ∧ ok (release .th (sGroup [5] 2 0)) () (sGroup [5] 2 0) = true := by
  and_intros <;> decide +kernel
theorem test_join_member : leaves (.join 2 0) (sGroup [5] 2 0) 2 0x0C00000000000000 = true ∧ leaves (.join 2 1) (sGroup [] 2 0) 2 0x0B00000000000000 = true := by
  decide +kernel
theorem test_gbar_releases : nextWith (exec (.gbar 2 0) (sGroup [5] 2 1))
    (fun s => x s 2 == some 0xFFFF && groupRec s 5 == some { cid := 1, mc := 2, ac := 0, gen := 0 }) = true := by decide +kernel

/-- R297: sluice 0 with one local member, sluice 1 with none, and the tree that the core does not have. -/
def sSluice : State := modCore s0 0 fun c => { c with slc := 1 }
theorem test_hyps_sluices : localCount sSluice 0 false 0 = 1 ∧ localCount sSluice 0 false 1 = 0 ∧ treeIndex sSluice 0 = none ∧
    fld (0x1F : Word) 63 5 = 0 ∧ bitOf (0x10 : Word) 4 = true ∧ fld (3 : Word) 3 0 < 4 ∧ ok (release .cl sSluice) () sSluice = true := by decide +kernel
theorem test_sluice_of_one : leaves (.sluice 2 15) sSluice 2 0 = true := by decide +kernel

/-- R295: two waiters of a barrier in the released generation, one of an older one. -/
def gbarWait (gen : Nat) : Thread := { t0 with status := .wait (.gbar 2 5 .pk gen) }
def sBarrier : State := setThr (setThr (setThr (sGroup [5] 3 3) 1 (gbarWait 0xFFFF)) 2 (gbarWait 0xFFFF)) 3 (gbarWait 0)
theorem test_hyps_barrier : joinWaiters sBarrier 5 = [] ∧ (∀ p ∈ sBarrier.threads, p.2.status ≠ .parked) ∧
    (find sBarrier.threads 1).map (·.status) = some (.wait (.gbar 2 5 .pk 0xFFFF)) ∧
    (find sBarrier.threads 3).map (·.status) = some (.wait (.gbar 2 5 .pk 0)) := by decide +kernel

/-- Endpoint 3 of die 0, tag 0, with its ring of two slots at 0x1000 of the core's scratchpad. -/
def aRing : Operand := { kind := .core, tgt := 0, addr := 0x1000, base := 0x1000, limit := 0x2000 }
def anEp (head tail : Nat) : Endpoint :=
  { st := .placed, tag := 0, cid := 1, owner := 9, slot := some 0, core := 0, local_ := some aRing, ln := 1, overRing := none, on_ := 0,
    head := head, headCopy := head, tail := tail, sent := [], ovTail := 0, ovf := [], stub := 0 }
def sEp (head tail : Nat) : State := setEp (sr [3, 4, 0x100]) 3 (anEp head tail)
def sStub : State := setEp (sr [4, 1]) 4 { anEp 0 0 with st := .moved, stub := 3 }
theorem test_hyps_messages :
    recvNow (sEp 0 1) 0 1 3 = some 64 ∧ recvNow (sEp 0xFFFFFFFF 0) 0 1 3 = some 128 ∧ recvNow (sEp 0 0) 0 1 3 = none ∧
    (recvNow (sEp 0 0) 0 1 4).map (fun r => fld r 63 56) = some 5 ∧ fld (0x100000000 : Word) 63 32 ≠ 0 ∧ fld (0xFFFFFFFF : Word) 63 32 = 0 ∧
    (Machine.core (sEp 0 0) 0).sendQ.length < 16 ∧ ok (release .pk (sEp 0 0)) () (sEp 0 0) = true ∧
    epLead (sEp 0 0) 1 maxStubs 3 = some 3 ∧ epFind (sEp 0 0) 1 3 = some (anEp 0 0) := by
  and_intros <;> decide +kernel
theorem test_hyps_message_operands : Checked [.src 0, .grp 8 4, .dst 2] (sEp 0 0) ∧ Checked [.src 0, .src 1, .dst 2] (sEp 0 0) ∧
    Reads 0 (sEp 0 0) 3 (sEp 0 0) ∧ Checked [.src 0, .dst 2] (sEp 0 0) := by
  and_intros <;> first | exact ok_eq (by decide +kernel) | decide +kernel
theorem test_recv_where : leaves (.recv 2 0) (sEp 1 2) 2 128 = true ∧ leaves (.recv 2 1) (sEp 0 0) 2 0x0500000000000000 = true := by
  decide +kernel
def aMessage : Message := { name := 3, at_ := 3, words := [0], swid := 9, core := 0, cid := 1, hop := 0 }
def sSendFull : State := modCore (sEp 0 0) 0 fun c => { c with sendQ := List.replicate 16 aMessage }
theorem test_send_queue_full : leaves (.send 2 0 8 0) sSendFull 2 0x0100000000000000 = true := by decide +kernel

/-- R301: an endpoint block whose ring is the segment's scratchpad; R309: an entry that has moved. -/
def sBlock : State := withBytes (sEp 0 1) (corePlace 0 0x1000) ([0x0100000000000100, 0, 1, 0].flatMap fun w => leBytes 8 w)
theorem test_hyps_endpoints :
    (match epBlock 0 false sBlock with | .ok (b, s) => b.bind_ && s == sBlock | .error _ => false) = true ∧ freeEntry sBlock 0 = some 0 ∧
    epFind sBlock 1 3 = some (anEp 0 1) ∧ epFind sBlock 1 5 = none ∧ epDie 3 = 0 ∧ epDie 0x40000003 = 1 ∧
    epLead (setEp sStub 3 (anEp 0 0)) 1 maxStubs 4 = some 3 := by
  and_intros <;> decide +kernel

/-! ### The answer table -/

/-- An entry of callee 0x40 with key [84] and one answer, a cursor on it, and a frame of another. -/
def anEntry (st : EntSt) : Entry :=
  { st := st, cid := 1, callee := 0x40, key := [84], slice := 0, set := 0, dfn := 1, grp := 0, answers := [[5, 6]], cur := 1, cause := 2, lru := 0 }
def aCursor (pos : Nat) : Cursor := { tag := 1, entry := 1, pos := pos, failed := false, cause := 0, used := true }
def aFrame : Frame := { die := 0, entry := 1, ret := 0x80, d := 2, cursor := cursorWord 0 1 0, inherited := false, dead := 0 }
def aTable (st : EntSt) (pos : Nat) : Table :=
  { Table.reset with entries := [anEntry st], dfn := 2, cursors := [(0, aCursor pos)], groups := [(0, { p := 1, a := 0 })] }
def sTable (st : EntSt) (pos : Nat) (fs : List Frame) : State :=
  modTbl (setThr s0 0 { t0 with regs := [84, 0x40, cursorWord 0 1 0] ++ List.replicate 13 0, frames := fs, cursors := [cursorWord 0 1 0] }) 0
    fun _ => aTable st pos

theorem test_hyps_table :
    keyed (sTable .open_ 0 []) 0x40 [84] = some (anEntry .open_) ∧ keyed (sTable .open_ 0 []) 0x44 [84] = none ∧ (0x40 : Word).toNat % 4 = 0 ∧
    noCursor (sTable .open_ 0 []) = false ∧ (newCursor (tbl (sTable .open_ 0 []) 0) 0 1 0).isSome = true ∧
    lowestFree (tbl (sTable .open_ 0 []) 0).groups 1024 = some 1 ∧ (self (sTable .open_ 0 [aFrame])).frames = [aFrame] ∧
    groupOfDfn (tbl (sTable .open_ 0 [aFrame]) 0) 1 = some 0 ∧ (self (sTable .open_ 0 [])).cursors = [cursorWord 0 1 0] ∧
    ok (release .di (sTable .open_ 0 [aFrame])) () (sTable .open_ 0 [aFrame]) = true := by
  and_intros <;> decide +kernel
theorem test_hyps_table_room :
    (let h := placeHash 1 0x44 [84]
     (roomIn (tbl (sTable .open_ 0 []) 0) (0 * 64 + fld h 63 58) (fld h 57 50)).isSome) = true ∧ (sTable .open_ 0 []).cur = 0 := by decide +kernel
theorem test_hyps_table_operands :
    Checked [.grp 0 1, .src 1, .grp 4 2] (sTable .open_ 0 []) ∧ Checked [.grp 0 1, .dst 4] (sTable .open_ 0 [aFrame]) ∧
    Checked [.src 2, .grp 4 5] (sTable .open_ 0 []) ∧ Checked [.src 2] (sTable .open_ 0 []) ∧ Reads 2 (sTable .open_ 0 []) (cursorWord 0 1 0) (sTable .open_ 0 []) := by
  and_intros <;> first | exact ok_eq (by decide +kernel) | decide +kernel
theorem test_hyps_cursor_answers :
    find (aTable .open_ 0).cursors 0 = some (aCursor 0) ∧ (aCursor 0).failed = false ∧ entryOf (aTable .open_ 0) 1 = some (anEntry .open_) ∧
    (anEntry .open_).answers[0]? = some [5, 6] ∧ (anEntry .open_).answers.length ≤ 1 ∧ (anEntry .complete).st = .complete ∧
    (anEntry .failed).st = .failed := by decide +kernel
theorem test_tnext_answer : leaves (.tnext 4 2) (sTable .open_ 0 []) 4 0x100 = true ∧ leaves (.tnext 4 2) (sTable .open_ 0 []) 6 6 = true ∧
    leaves (.tnext 4 2) (sTable .complete 1 []) 4 1 = true ∧ leaves (.tnext 4 2) (sTable .failed 0 []) 4 0x20003 = true := by decide +kernel
theorem test_tlook_miss : leaves (.tlook 4 1 15 0) (sTable .open_ 0 []) 4 0 = true ∧ leaves (.tlook 4 0 1 0) (sTable .complete 0 []) 4 2 = true := by
  decide +kernel
theorem test_tret_without_frame : trapsWith .tret s0 0x21 = true := by decide +kernel

theorem test_hyps_table_control :
    Checked [.src 0, .src 1, .dst 2] s0 ∧ 2 ≤ (2 : Word).toNat ∧ 3 ≤ (3 : Word).toNat ∧
    (self (sl .s)).level ≠ .u ∧ fld (0xFFF : Word) 63 12 = 0 ∧ (self s0).level = .u := by
  and_intros <;> first | exact ok_eq (by decide +kernel) | decide +kernel

/-! ### Jobs -/

/-- A fill of CORE from the command block in x0 to x3: OPC 0x11, its operands in sg0. -/
def fillCommand : List Word := [0x11, 0, 0, 0]
def sJob (js : List Job) : State := withJobs (sr fillCommand) js
def report (id : Nat) : Word := BitVec.ofNat 64 (2 ^ 60 + id)
def sReport : State := modCore (withJobs s0 [{ copyJob 1 with st := .reported }]) 0 fun c => { c with inbox := [report 1] }
theorem test_hyps_jobs :
    commandBad 0 0x11 0 0 0 = none ∧ commandBad 0 0xFF 0 0 0 = some 0 ∧ commandBad 0 0x11 0 0 (word (2 ^ 63)) = some 3 ∧
    ((usedSpecs 0 0x11 (opSpecs 0x11 0 0 0)).filterMap id).findSome? (operandTrap (self (sJob []))) = none ∧
    (((usedSpecs 0 0x11 (opSpecs 0x11 0 0 0)).filterMap id).findSome? (operandTrap { t0 with segs := [] })).isSome = true ∧
    ((cluster (sJob []) 0).jobs.filter fun j => j.st != .reported).length < 32 ∧
    32 ≤ ((cluster (sJob ((List.range 32).map fun i => copyJob (i + 1))) 0).jobs.filter fun j => j.st != .reported).length ∧
    knownJob sReport 0 1 = some { copyJob 1 with st := .reported } ∧ knownJob sReport 0 0xFFFF = none ∧
    ((Machine.core sReport 0).inbox ++ (Machine.core sReport 0).inboxOver).any (isReport 1) = true ∧ fld (0xFFFF : Word) 63 16 = 0 ∧
    fld (0x10000 : Word) 63 16 ≠ 0 ∧ fld (0x10001 : Word) 63 17 = 0 ∧ ok (release .cl (sJob [])) () (sJob []) = true := by
  and_intros <;> decide +kernel
theorem test_hyps_job_operands : Checked [.grp 0 4, .dst 4] (sJob []) ∧ Checked [.src 0, .dst 2] sReport :=
  ⟨ok_eq (by decide +kernel), ok_eq (by decide +kernel)⟩
theorem test_hyps_row_handler : t0.handler = none ∧ { t0 with handler := some (1, 0) }.handler ≠ none ∧ ok (release .cl s0) () s0 = true := by decide +kernel
theorem test_jsub : leaves (.jsub 4 0) (sJob []) 4 1 = true ∧ leaves (.jsub 4 0) (sJob ((List.range 32).map fun i => copyJob (i + 1))) 4 0 = true ∧
    trapsWith (.jsub 4 0) (sr [0xFF]) 0x1C = true := by decide +kernel
theorem test_jwait_unknown : leaves (.jwait 2 15) s0 2 0xA000000000000000 = true := by decide +kernel
theorem test_rdone_outside_handler : trapsWith .rdone s0 0x1E = true := by decide +kernel

/-! ### Events -/

/-- A cached access of core 0 to a translated address. -/
def acc (who : Agent) (op : MemOp) (a : Nat) : Access :=
  { tx := 0, agent := who, core := 0, cid := 1, kind := .glob, tgt := 0, addr := a, op := op, scope := .th, xlated := true, phys := a,
    home := none, cache := 0, common := false, tracked := false, handle := none }

def sAsync : State := setThr s0 0 { t0 with pend := [{ cause := 0x22, tval := 3, tadr := 0, store := false }] }
def sResult (r : Result) : State := setThr s0 0 { t0 with results := [r] }
def aLoad (d : Dest) : Outst :=
  { tx := 0, dest := d, pc := 0x20, va := 0x10000, pieces := [{ acc := acc (.load 0) (.read 4) 0x10000, lanes := [], reply := none, fixed := false }],
    atom := false, dieLocal := false, acq := false }
def sLoad : State := setThr s0 0 { t0 with outs := [aLoad (.x 2 4 true)] }
def aStore : SbEntry := { slot := 0, kind := .glob, tgt := 0, words := [(0x10000, 4, 7)], flush := false }
def sStore : State := modCore s0 0 fun c => { c with sb := [aStore] }
def aMiss : Mshr := { line := 512, cid := 1, probed := false, joined := [{ slot := 0, tx := 0, off := 0, size := 4, addr := 0x10000 }] }
def sMiss : State := modCore s0 0 fun c => { c with mshr := [aMiss] }
def aWalk (stale : Bool) : Walk := { cid := 1, page := 1, waiting := [acc (.load 0) (.read 4) 0x10000], stale := stale }
def sWalk (stale : Bool) : State := modCluster s0 0 fun c => { c with walks := [aWalk stale] }
def aFault (hyper told : Bool) : FaultRec := { faultRec 1 0 0x10 9 0 0 0 0 0 0 with hyper := hyper, told := told }
def sFault (hyper told : Bool) : State := { s0 with parts := [(1, { newPart [] with clusters := [0], faults := [aFault hyper told] })] }

theorem test_hyps_arrivals_at_cores :
    (thr sAsync 0).map (fun t => (t.pend.length, t.inh, t.saving, t.status, t.stalled)) = some (1, false, none, .ready, []) ∧
    (thr (sResult { tx := 4, reg := some (2, 7), vec := none }) 0).map (fun t => (t.results.find? fun q => q.tx == 4).isSome) = some true ∧
    (thr (sResult { tx := 4, reg := none, vec := some (2, [(15, 7)]) }) 0).map (fun t => (t.results.find? fun q => q.tx == 4).isSome) = some true ∧
    (thr sLoad 0).map (fun t => t.outs) = some [aLoad (.x 2 4 true)] ∧ (aLoad (.x 2 4 true)).pieces.all (fun p => !p.early) = true ∧ (Machine.core s0 0).sb = [] ∧ (Machine.core sStore 0).sb = [aStore] ∧
    mayDrain sStore 0 aStore = true ∧ freeEntries sStore 0 1 = some [0] ∧ find (Machine.core sRef 0).journal 3 = some (jEntry true 2) ∧
    (thr sRef 0).map (fun t => (t.swid, t.pend)) = some (9, []) := by
  and_intros <;> decide +kernel
theorem test_hyps_port_arrivals :
    ((Machine.core sMiss 0).mshr.find? fun m => m.cid == 1 && m.line == 512).isSome = true ∧ sMiss.poison = [] ∧
    ((cluster (sWalk true) 0).walks.find? fun w => w.cid == 1 && w.page == 1) = some (aWalk true) ∧
    ((cluster (sWalk false) 0).walks.find? fun w => w.cid == 1 && w.page == 1) = some (aWalk false) ∧ (aWalk false).waiting ≠ [] ∧
    (walkVa (modCluster (sWalk false) 0 fun x => { x with walks := [] }) 0 1 0x10000).2.isOk = false ∧
    notFree (sFault true false) (faultVisits (sFault true false) 1) = false ∧
    (part ((faultVisits (sFault true false) 1).foldl noteVisit (sFault true false)) 1).map (fun p => p.faults) = some [aFault true false] ∧
    (aFault true false).hyper = true ∧
    ((part (sFault true false) 1).bind fun p => appendHyper (sFault true false) 1 p (aFault true false)).isSome = true ∧
    (appendFault (sFault false true) 1 0 (aFault false true)).isNone = true ∧ (aFault false true).told = true ∧
    (word (2 ^ 62 + 1)).getLsbD 57 = false ∧ pinvDone s0 0 1 = true := by
  and_intros <;> decide +kernel
theorem test_async_trap : nextWith (exec (.asyncTrapDelivery 0) sAsync) (fun s => (self s).cause == 0x122 && (self s).tpc == 0 && (self s).pend == []) = true := by
  decide +kernel
theorem test_load_arrives : nextWith (exec (.loadDataArrives ⟨0, 0⟩ 0 0x10000 ⟨.data [0xFE, 0xFF, 0xFF, 0xFF], false⟩) sLoad)
    (fun s => x s 2 == some 0xFFFFFFFFFFFFFFFE && (self s).outs == []) = true := by decide +kernel
theorem test_load_refused : nextWith (exec (.loadDataArrives ⟨0, 0⟩ 0 0x10000 ⟨.refused 1 3, false⟩) sLoad)
    (fun s => (self s).pend == [{ cause := 0x16, tval := 0x103, tadr := 0x20, store := false, dest := .x 2 4 true }]) = true := by decide +kernel

/-! Homes -/

def aLine : HomeLine := { newLine 1 512 0 with data := some (List.replicate 128 7) }
def sHome (y : HomeLine) : State := modSlice s0 3 fun z => { z with lines := [y] }
theorem idle_home : Idle (sHome aLine) 3 1 512 aLine (List.replicate 128 7) ∧ Alone (sHome aLine) 3 1 512 aLine :=
  by unfold Idle Alone; decide +kernel

theorem test_hyps_homes :
    (acc (.load 0) (.read 4) 0x10000).phys / 128 = 512 ∧ lineAt (sHome { aLine with filling := true, data := none }) 3 1 512 ≠ none ∧
    lineBusy { aLine with filling := true } = true ∧ lineAt s0 3 1 512 = none ∧ (slice s0 3).noRoom = [] ∧ (wayFor s0 3 512).2 = some 0 ∧
    aLine.hh0 ≠ 2 ∧ aLine.hh1 = 0 ∧ (sHome aLine).poison = [] ∧ lineAt (sHome { aLine with memWait := true }) 3 1 512 ≠ none ∧
    lineAt (sHome { aLine with acks := 2 }) 3 1 512 ≠ none ∧ 1 < (2 : Nat) ∧
    (modPkg s0 fun p => { p with hotCtl := 0x80000000, hotBase := 0x1000 }).pkg.hotCtl.getLsbD 31 = true ∧
    fld (0x1000 : Word) 45 12 ≠ 0 ∧ fld (0 : Word) 45 12 = 0 := by
  and_intros <;> decide +kernel
theorem test_hyps_explicit_levels :
    chipBase + 0 < coreBase ∧ (cluster s0 1).cid ≠ 1 ∧ (cluster s0 0).cid = 1 ∧ (cluster s0 0).acc.getLsbD 0 = true ∧
    (cluster (modCluster s0 0 fun c => { c with acc := 0 }) 0).acc.getLsbD 0 = false ∧ (0 : Nat) < 260 ∧
    touchLater s0 (place 0 .remc 0 0) 4 (acc (.load 0) (.read 4) 0) = none ∧ importFor s0 1 1 = none ∧
    importFor (modPkg s0 fun p => { p with imports := [(1, [(1, 1)])] }) 1 1 = some 1 := by
  and_intros <;> decide +kernel
theorem test_home_serves : nextWith (exec (.requestAtHome 3 (acc (.load 0) (.read 4) 0x10000)) (sHome aLine))
    (fun s => s.due == [.l1FillLands ⟨nodeSlice 3, 0⟩ 1 512 true ⟨List.replicate 128 7, []⟩] && (lineAt s 3 1 512).map (·.ptrs) == some [0]) = true := by decide +kernel
theorem test_home_stores : nextWith (exec (.requestAtHome 3 (acc (.journal 0 [5]) (.write [(0x10001, 9)]) 0x10000)) (sHome aLine))
    (fun s => s.due == [.storeAck ⟨nodeSlice 3, 0⟩ [5] 0 none] && (lineAt s 3 1 512).map (fun y => (y.data.map fun d => d.take 3, y.dirty)) == some (some [7, 9, 7], true)) = true := by
  decide +kernel
theorem test_remote_refused : nextWith (exec (.remoteAccessArrival { acc (.journal 0 [5]) (.write [(0, 9)]) 0 with kind := .remc, tgt := 1 }) s0)
    (fun s => s.due == [.storeAck ⟨nodeCore 8, 0⟩ [5] 2 none]) = true := by decide +kernel

/-! Basins and towlines -/

theorem test_hyps_basin_events :
    lineTag sBasin 0 false 32 = some (aTag 3 1) ∧ lineTag sBasin 0 false 33 = some (aTag 0 0) ∧
    basin sBasin 0 (aTag 3 1).bn = some aBasin ∧ (aTag 3 1).dm &&& BitVec.ofNat 32 1 ≠ 0 ∧
    ((Machine.core s0 0).mshr.any fun m => m.cid == 1 && m.line == 512) = false ∧ storeInFlight s0 0 512 = false ∧
    ((Machine.core sMiss 0).mshr.any fun m => m.cid == 1 && m.line == 512) = true ∧ ((holdersOf s0 3 1 512).find? fun o => o.core == 0) = none ∧
    towDesc sTow 3 = some aTow ∧ towDesc (setTow sTow 3 { aTow with st := .armed }) 3 = some { aTow with st := .armed } ∧
    (towDesc (clearStep (setTow sTow 3 { aTow with st := .armed, pending := 1 }) 5 3) 3).map (·.pending) = some 1 ∧
    (towDesc (clearStep (setTow sTow 3 { aTow with st := .armed, pending := 256 }) 5 3) 3).map (·.pending) = some 256 := by
  and_intros <;> decide +kernel
def aHolder : Holder := { cid := 1, core := 0, clus := false, line := 512, sline := 32, recalling := false }
theorem test_hyps_tow_basin :
    ((holdersOf (modSlice sBasin 3 fun z => { z with holders := [aHolder] }) 3 1 512).find? fun o => o.core == 0) = some aHolder ∧
    (if (aTag 3 1).fp then (aTag 3 1).v else BitVec.allOnes 32) &&& ~~~ (aTag 3 1).dm ≠ 0 := by decide +kernel
theorem test_fill_keeps_dirty : nextWith (exec (.basinFillLands ⟨nodeSlice 3, 0⟩ false 32 true ⟨List.replicate 128 9, []⟩) sBasin)
    (fun s => readBytes s.mem (corePlace 0 0x1000) 12 == [0, 0, 0, 0, 0, 0, 0, 0, 9, 9, 9, 9] &&
      ((find (Machine.core s 0).tags 32).map fun t => (t.v, t.dm)) == some (0xFFFFFFFF, 1)) = true := by decide +kernel
theorem test_probe_marks_overwrite : nextWith (exec (.basinInvalidationProbe 0 false 32 3 1 512 3 false) sBasin)
    (fun s => ((find (Machine.core s 0).tags 32).map fun t => (t.v, t.dm)) == some (1, 1) && (basin s 0 0).map (·.ow) == some true) = true := by
  decide +kernel

def aFlight : WbFlight := { tx := 7, bn := (aTag 3 1).bn, clus := false, sline := 32, mask := 1, owner := none }
def sWb : State := modCore sBasin 0 fun x => { x with wbs := [aFlight] }
theorem test_hyps_write_back_ack : lineTag sWb 0 false 32 = some (aTag 3 1) ∧
    (Machine.core sWb 0).wbs.find? (fun w => w.tx == 7) = some aFlight := by
  refine ⟨?_, ?_⟩ <;> decide +kernel

/-! The host's links -/

def linked (m : LinkMode) (s : State) : State :=
  modVf (modPkg { s with parts := [(1, { newPart [] with clusters := [0], hsize := 2, rn := 4 })] } fun p => { p with link0 := m, vfEnable := true }) 1
    fun v => { v with part := 1 }
theorem test_hyps_host_lines :
    cxlUp (linked .cxl (sHome aLine)) 512 = true ∧ hostTracked (linked .cxl (sHome aLine)) 1 512 = true ∧
    lineAt (linked .cxl (sHome aLine)) 3 1 512 = some aLine ∧ holdersOf (linked .cxl (sHome aLine)) 3 1 512 = [] ∧ halfState aLine 0 ≠ 2 ∧
    halfState { aLine with hh1 := 2 } 1 = 2 ∧
    (({ aLine with bi := [{ half := 1, inv := true, blocking := true, done := none }] } : HomeLine).bi.find? fun b => b.half == 1).isSome = true := by
  and_intros <;> decide +kernel
theorem test_hyps_host_windows :
    (find (linked .pcie s0).pkg.vfs 1).map (·.part) = some 1 ∧ (part (linked .pcie s0) 1).map (·.hsize) = some 2 ∧ (linked .pcie s0).pkg.link0 = .pcie ∧
    0x1FF80 + 128 ≤ 2 * 2 ^ 16 ∧ 128 ≤ 128 - 0x1FF80 % 128 ∧ (linked .cxl s0).pkg.link0 ≠ .pcie ∧ 2 * 2 ^ 16 < barEnd 0x1FF81 (.read 128) ∧
    (vf (linked .pcie s0) 1).part = 1 ∧ ((0x10 : BitVec 32).toNat + 2 ^ 32 - 0) % 2 ^ 32 ≤ 2 ^ 4 ∧
    2 ^ 4 < ((0x11 : BitVec 32).toNat + 2 ^ 32 - 0) % 2 ^ 32 ∧ (2 : Word).getLsbD 1 = true := by
  and_intros <;> decide +kernel
theorem test_doorbell : nextWith (exec (.doorbellTail 1 0x11) (linked .pcie s0)) (fun s => (vf s 1).rerr) = true ∧
    nextWith (exec (.doorbellTail 1 0x10) (linked .pcie s0)) (fun s => !(vf s 1).rerr && (part s 1).map (·.tail) == some 16) = true := by decide +kernel

/-! Scheduling -/

def aSpawn : SpawnReq :=
  { from_ := 0, target := 1, swid := 5, pc := 0x40, args := [1, 2, 3, 4], rsz := 8, lsz := 8, spt := 0x0808, segs := List.replicate 8 (0, 0),
    level := 0, tvec := 0, flotilla := 0 }
def sSaving (o : List Outst) : State :=
  modCore (setThr s0 0 { t0 with saving := some false, outs := o }) 0 fun c => { c with ctxa := word (2 ^ 56) }
def bent (st : Status) : State := setThr s0 0 { t0 with status := st }
theorem test_hyps_slots :
    (Machine.core s0 1).spawnQ = [] ∧ (Machine.core s0 1).heldSnaps = [] ∧ (fit s0 1 8 8).map (·.1) = some 64 ∧ (fit s0 1 112 128).isSome = true ∧
    (Machine.core (modCore s0 1 fun c => { c with spawnQ := List.replicate 7 (.spawn aSpawn) }) 1).spawnQ.length = 7 ∧
    8 ≤ (Machine.core (modCore s0 1 fun c => { c with spawnQ := List.replicate 8 (.spawn aSpawn) }) 1).spawnQ.length ∧
    (thr (bent (.wait (.spawn 2))) 0).map (·.status) = some (.wait (.spawn 2)) ∧ (thr (bent (.wait .sleep)) 0).map (·.status) = some (.wait .sleep) ∧
    (grantOne (refillQueue (modCore s0 1 fun c => { c with spawnQ := [.spawn aSpawn] }) 1 8) 1).isSome = true ∧ comesBack s0 1 = [] ∧ grantReserve s0 1 = none ∧
    saveDone (sSaving []) 0 = true ∧ saveDone (sSaving [aLoad (.x 2 4 true)]) 0 = false ∧ savedCount (sSaving []) 1 = 1 ∧
    recordsOf (sSaving []) 0 = 1024 ∧ savedCount s0 1 < recordsOf (sSaving []) 0 ∧ recordsOf s0 0 ≤ savedCount s0 1 ∧ toHandOver s0 0 = [] := by
  and_intros <;> decide +kernel
theorem test_hyps_limits :
    (episode s0 0 false 0).counts = [] ∧ (episode (setEpisode s0 0 false 0 { counts := [(0, 1)] }) 0 false 0).counts ≠ [] ∧
    fld (0x2000000000000005 : Word) 63 60 ≠ 1 ∧ (Machine.core s0 0).inbox.length < 64 ∧ fld (report 1) 63 60 = 1 ∧
    jwaiter (bent (.wait (.jwait 2 1))) 0 (fld (report 1) 15 0) = some 0 ∧ waitOf (self (bent (.wait (.jwait 2 1)))) = some (.jwait 2 1) ∧
    (epFind (sEp 0 0) 1 3).map (fun e => (e.st, ringFree e, e.ovf)) = some (.placed, true, []) ∧ msgAllowed (sEp 0 0) (anEp 0 0) aMessage = true ∧
    msgAllowed (modCluster (sEp 0 0) 0 fun c => { c with msg := 0 }) (anEp 0 0) aMessage = false ∧ (epFind sStub 1 4).map (·.st) = some .moved := by
  and_intros <;> decide +kernel
theorem test_spawn_begins : nextWith (exec (.spawnArrival aSpawn) (bent (.wait (.spawn 2))))
    (fun s => x s 2 == some 0 && (thr s 64).map (fun t => (t.pc, t.regs.take 5, t.swid)) == some (0x40, [1, 2, 3, 4, 0], 5)) = true := by decide +kernel
theorem test_inbox_overflows : nextWith (exec (.inboxDelivery 0 0x2000000000000005) (modCore s0 0 fun c => { c with inbox := List.replicate 64 0 }))
    (fun s => (Machine.core s 0).inboxOver == [0x2000000000000005]) = true := by decide +kernel

/-! Launches and jobs -/

def parted (s : State) (p : Part → Part) : State := { s with parts := [(1, p { newPart [] with clusters := [0] })] }
def queuedLaunch (d : List Word) : Launch := { id := 1, desc := d, threads := [], block := [], read := false }
def sLaunch : State := parted State.reset fun p => { p with queues := [(0, [queuedLaunch aDesc])] }
def sRetire : State := { State.reset with flotillas := [(1, aFlotilla)] }
theorem test_hyps_launches :
    placeStep sRetire 1 = none ∧ placeStep (parted State.reset fun p => p) 1 = none ∧
    (placeStep sLaunch 1).isSome = true ∧ (placeStep sLaunch 1).map Prod.snd = some true ∧ ((placeStep sLaunch 1).bind fun r => placeStep r.1 1).isNone = true ∧
    (((part sLaunch 1).bind fun p => firstReady sLaunch 1 p).map (·.id)) = some 1 ∧
    ((part (parted State.reset fun p => p) 1).bind fun p => firstReady State.reset 1 p) = none ∧
    (readLaunch sLaunch 1 (queuedLaunch aDesc)).isNone = true ∧ threadCount sRetire 1 = 0 ∧ aFlotilla.entries = [] ∧ aFlotilla.next = none ∧
    aFlotilla.suspended = false ∧ ((coresOf aFlotilla.clusters).any fun c => (Machine.core sRetire c).basins.any fun b => b.2.st == .active) = false ∧
    ((coresOf aFlotilla.clusters).any fun c => (Machine.core sBasin c).basins.any fun b => b.2.st == .active) = true ∧
    ((coresOf aFlotilla.clusters).any fun c => !(Machine.core sRetire c).wbs.isEmpty) = false ∧
    ((coresOf aFlotilla.clusters).any fun c => !(Machine.core sRetire c).spawnQ.isEmpty || !(Machine.core sRetire c).heldSnaps.isEmpty) = false ∧
    (let s := modCore sRetire 0 fun c => { c with heldSnaps := [(0, 0)] }
     (coresOf aFlotilla.clusters).any fun c => !(Machine.core s c).spawnQ.isEmpty || !(Machine.core s c).heldSnaps.isEmpty) = true ∧
    threadCount { sRetire with threads := [(0, { t0 with flotilla := 1 })] } 1 ≠ 0 := by
  and_intros <;> decide +kernel
/-- A launch whose thread entries lie in no page: it retires BAD; one that can be placed. -/
def sPlace : State := parted State.reset fun p => { p with queues := [(0, [{ queuedLaunch aDesc with read := true, threads := [List.replicate 10 0] }])] }
theorem test_hyps_placement :
    ((part sPlace 1).bind fun p => (firstReady sPlace 1 p).bind fun l => (readLaunch sPlace 1 l).bind fun l =>
      (chooseClusters sPlace p l).map fun q => (q, (placeLaunch sPlace 1 p l q.1 q.2).isSome)) = some (([0], none), true) := by decide +kernel

def matrixJob (opc : Nat) (st : JobSt) : Job := { job 1 (word (2 ^ 40 + opc)) with st := st }
def aCtx : MtCtx := { wf := 0, sc := false, ocv := 0, rm := 0, as_ := aRing, ws := aRing, harg := 0, hpc := 0x40 }
/-- A slot that core 0 holds for the handlers of job 1. -/
def aReserved : Reserved :=
  { slot := 5, job := 1, rsz := 0, lsz := 0, segs := [], level := .u, spt := 0, tvec := 0, swid := 9, rbase := 0, lbase := 0, flotilla := 0 }
def sQueued (j : Job) : State := withJobs s0 [j]
theorem test_hyps_matrix_jobs :
    ItsTurn (sQueued (matrixJob 1 .queued)) 0 1 (matrixJob 1 .queued) true ∧ ItsTurn (sQueued (matrixJob 2 .queued)) 0 1 (matrixJob 2 .queued) true ∧
    jobAt (sQueued (matrixJob 2 .gathering)) 0 1 = some (matrixJob 2 .gathering) ∧
    gangReady (sQueued (matrixJob 2 .gathering)) 0 (matrixJob 2 .gathering) = false ∧
    gangReady (modCore (sQueued { matrixJob 2 .gathering with joined := [0] }) 0 fun y => { y with reserved := [aReserved] }) 0
      { matrixJob 2 .gathering with joined := [0] } = true ∧
    Runs (sQueued (matrixJob 2 .running)) 0 1 (matrixJob 2 .running) ∧ jobHeld (sQueued (matrixJob 2 .stopped)) (matrixJob 2 .stopped) = false ∧
    (Machine.core s0 0).ctx = none ∧ (Machine.core s0 0).drain.length < 4 ∧ readyRow s0 0 = none ∧
    (Machine.core (modCore (sQueued (matrixJob 2 .running)) 0 fun y => { y with drain := List.replicate 4 { job := 1, x0 := 0, vals := [], esz := 0, started := false } }) 0).drain.length = 4 := by
  unfold ItsTurn Runs; and_intros <;> decide +kernel
theorem test_hyps_copy_jobs :
    ItsTurn (sQueued (job 1 0x10)) 0 1 (job 1 0x10) false ∧ copyPlaces (sQueued (job 1 0x10)) 0 = 0 ∧
    4 ≤ copyPlaces (withJobs s0 ((List.range 4).map fun i => copyJob (i + 2))) 0 ∧
    Runs (sQueued { job 1 0x10 with st := .running }) 0 1 { job 1 0x10 with st := .running } ∧ (job 1 0x10).desc = [] ∧
    (planOf 0x11 [0x1008000000000000, 0, 1, 4, 4]).isSome = true ∧
    collides (sQueued (job 1 0x20)) 0 (job 1 0x20) = false ∧
    ((List.range 64).all fun d => (1 : Word).getLsbD d == (d == s0.pkg.dev)) = true ∧
    ((List.range 64).all fun d => (3 : Word).getLsbD d == (d == s0.pkg.dev)) = false := by
  unfold ItsTurn Runs; and_intros <;> decide +kernel
theorem test_mt_ctx : nextWith (exec (.mtCtx 0 1) (sQueued (matrixJob 1 .queued))) (fun s => (Machine.core s 0).ctx.isSome && s.due.length == 1) = true := by
  decide +kernel

/-! The package -/

theorem test_hyps_mailbox :
    s0.due.any isMailbox = false ∧ (post s0 .flushCommon).due.any isMailbox = true ∧ s0.pkg.ready = false ∧
    (modPkg s0 fun p => { p with ready := true }).pkg.ready = true ∧ partDescBad [] = true ∧ part s0 1 = none ∧ (part (linked .pcie s0) 1).isSome = true ∧
    commonLines s0 = [] ∧ commonLines (modSlice s0 3 fun z => { z with lines := [{ aLine with cid := 0 }] }) = [(3, { aLine with cid := 0 })] ∧
    lineBusy { aLine with cid := 0 } = false ∧ domQuiet s0 = true ∧ domQuiet (postTimer s0 (.domainTimeout (acc (.load 0) (.read 4) 0))) = false ∧
    (fld (0x03E80000 : Word) 31 12 = 0x3E80 ∧ fld (0x1000 : Word) 31 12 = 1 ∧ fld (100000 * 2 ^ 12 : Word) 31 12 = 100000) ∧
    100000 < fld (100001 * 2 ^ 12 : Word) 31 12 := by
  and_intros <;> decide +kernel
/-- A partition on cluster 3 with one bandwidth unit and a ring of two slots. -/
def partDesc : List Word := [0x1001, 8, 0, 0, 0, 0, 0x10000, 0, 0, 0, word (2 ^ 62), 0, 0, 0, word (2 ^ 60), 0]
theorem test_hyps_partition :
    partDescBad partDesc = false ∧ partTaken (linked .pcie s0) 1 (newPart partDesc) = true ∧ partTaken State.reset 1 (newPart partDesc) = false ∧
    ringInRanges State.reset 1 (newPart partDesc) = false := by
  refine ⟨?_, ?_, ?_, ?_⟩ <;> decide +kernel
theorem test_mailbox_results :
    nextWith (exec (.partCreate []) (modPkg s0 fun p => { p with ready := true })) (fun s => s.pkg.mailbox == 0x8000000000000001) = true ∧
    nextWith (exec (.partCreate partDesc) (modPkg State.reset fun p => { p with ready := true })) (fun s => s.pkg.mailbox == 0x8000000000000003) = true ∧
    nextWith (exec (.vfBind 64 1) (modPkg s0 fun p => { p with ready := true })) (fun s => s.pkg.mailbox == 0x8000000000000001) = true := by
  decide +kernel

theorem test_hyps_package :
    (vf (linked .pcie s0) 1).part ≠ 0 ∧ (vf s0 1).part = 0 ∧ (15 < 16 ∧ s0.pkg.portsDown.contains 15 = false) ∧
    (lineAt (sHome { aLine with filling := true, data := none }) 3 1 512).map (·.filling) = some true ∧
    (modPkg s0 fun p => { p with phase := 1 }).pkg.phase = 1 ∧ (modPkg s0 fun p => { p with stopped := true }).pkg.stopped = true ∧
    Pkg.reset.measures.length = 8 ∧ s0.picks.head? ≠ some (.event .reset) := by
  and_intros <;> decide +kernel
theorem test_reset_needs_no_clock : nextWith (step { modPkg s0 fun p => { p with stopped := true } with picks := [.event .reset] })
    (fun s => !s.pkg.stopped && s.pkg.phase == 1) = true := by decide +kernel
theorem test_stopped : (match step (modPkg s0 fun p => { p with stopped := true }) with
    | .fault f => f == .clocksStopped | .next _ => false | .refused _ => false) = true := by decide +kernel
theorem test_hyps_storage : Memory.wf (withBytes s0 5 [1, 0, 2]).mem = true ∧ (withBytes s0 5 [1, 0, 2]).mem = [(5, 1), (7, 2)] := by decide +kernel


/-! ### Lines that agents of the I/O die visit

Partition 1 maps the first gigabyte onto itself, in both stages, on pages of die 0. -/

def sMap1 (rights : Nat) (p : Part → Part) : State :=
  let q : Part := { newPart [] with clusters := [0], hsize := 0x4000, t0 := 0x10000, t1 := 0x8000, rbase := 0x20000, rn := 1 }
  let leaf (n : Nat) : List Byte := leBytes 8 (2 ^ 62 * 3 + n * 2 ^ 59)
  let ptr (a : Nat) : List Byte := leBytes 8 (2 ^ 63 + a)
  let s := withBytes (withBytes s0 0x8000 (ptr 0x9000)) 0x9000 (leaf 7)
  { withBytes (withBytes s 0x10000 (ptr 0xA000)) 0xA000 (leaf rights) with parts := [(1, p q)] }
/-- The line of an address, being filled, or held with its first half owned by the host. -/
def busyAt (s : State) (a : Nat) : State := modSlice s (homeSlice (some 0) a) fun z =>
  { z with lines := z.lines ++ [{ newLine 1 (a / 128) 0 with filling := true }] }
def ownedAt (s : State) (a : Nat) : State := modSlice s (homeSlice (some 0) a) fun z =>
  { z with lines := z.lines ++ [{ newLine 1 (a / 128) 0 with data := some (List.replicate 128 0), hh0 := 2 }] }
/-- What a device's access is allowed once it is walked. -/
def devicePermitted (s : State) (r : Access) : Option Bool :=
  match (walkVa s 0 1 r.addr).2 with
  | .ok e => some (permits s e r)
  | .error _ => none

theorem test_hyps_walks :
    (walkVa (modCluster (sMap1 7 id) 0 fun x => { x with walks := [] }) 0 1 0x10000).2.isOk = true ∧
    devicePermitted (sMap1 4 id) (acc (.device 1) (.read 4) 0x10000) = some true ∧
    devicePermitted (sMap1 4 id) (acc (.device 1) (.write [(0x10000, 1)]) 0x10000) = some false ∧
    (walkVa State.reset 0 1 0x10000).2.isOk = false := by and_intros <;> decide +kernel

def sRecord (fq : Word) (r : FaultRec) : State := sMap1 7 fun p => { p with fq := fq, faults := [r] }
theorem test_hyps_fault_queue :
    notFree (busyAt (sRecord 0x30000 (aFault false false)) 0x30000) (faultVisits (busyAt (sRecord 0x30000 (aFault false false)) 0x30000) 1) = true ∧
    notFree (ownedAt (sRecord 0x30000 (aFault false false)) 0x30000) (faultVisits (ownedAt (sRecord 0x30000 (aFault false false)) 0x30000) 1) = true ∧
    notFree (sRecord 0x30000 (aFault false false)) (faultVisits (sRecord 0x30000 (aFault false false)) 1) = false ∧
    (appendFault (sRecord 0x30000 (aFault false false)) 1 0x30000 (aFault false false)).isSome = true ∧
    notFree (sRecord 0 (aFault false true)) (faultVisits (sRecord 0 (aFault false true)) 1) = false ∧
    (appendFault (sRecord 0 (aFault false true)) 1 0 (aFault false true)).isNone = true := by and_intros <;> decide +kernel

/-- A ring that holds one slot with a descriptor. -/
def sRing (d : List Word) (p : Part → Part) : State :=
  withBytes (sMap1 7 fun q => p { q with tail := 1 }) 0x20080 (d.flatMap fun w => leBytes 8 w.toNat)
def badDesc (rva : Nat) : List Word := (aDesc.set 15 1).set 4 (word rva)
theorem test_hyps_ring_slots :
    notFree (busyAt (sRing aDesc id) 0x20080) (ringVisits (busyAt (sRing aDesc id) 0x20080) 1) = true ∧
    notFree (sRing aDesc id) (ringVisits (sRing aDesc id) 1) = false ∧
    ((part (sRing aDesc id) 1).bind fun p => ringSlot (sRing aDesc id) 1 p) = some aDesc ∧
    (enterLaunch (sRing aDesc id) 1 aDesc).isSome = true ∧
    (enterLaunch (sRing aDesc fun p => { p with queues := [(0, List.replicate 256 aLaunch)] }) 1 aDesc).isNone = true ∧
    notFree (sRing (badDesc 0x30000) id) (ringVisits (sRing (badDesc 0x30000) id) 1) = false ∧
    ((part (sRing (badDesc 0) id) 1).bind fun p => ringSlot (sRing (badDesc 0) id) 1 p) = some (badDesc 0) ∧
    descBad (badDesc 0) = some 15 ∧ fld ((badDesc 0).getD 4 0) 51 0 = 0 ∧ descBad (badDesc 0x30000) = some 15 ∧
    (partStore (sRing (badDesc 0x30000) id) 1 0x30000 2).isSome = true ∧
    (part (sMap1 7 id) 1).map (fun p => (p.head, p.tail)) = some (0, 0) := by and_intros <;> decide +kernel
theorem test_ring_slot_taken : nextWith (exec (.hostRingSlot 1) (sRing aDesc id))
    (fun s => (part s 1).map (fun p => (p.head, (p.queues.flatMap fun q => q.2).map fun l => l.id)) == some (1, [1])) = true := by
  decide +kernel

/-- A launch with a table at 0x30000, a segment block at 0x38000 and a status record at 0x40000. -/
def mapDesc : List Word := ((aDesc.set 1 0x30000).set 2 0x38000).set 4 0x40000
def sQueue (d : List Word) : State := sMap1 7 fun p => { p with queues := [(0, [queuedLaunch d])] }
/-- A launch that waits on the counter at 0x48000, and one that waits on itself. -/
def waitDesc : List Word := (mapDesc.set 0 (word (2 ^ 52 + 2 ^ 49 + 2 ^ 24))).set 6 (word (2 ^ 63 + 0x48000))
def selfDesc : List Word := (mapDesc.set 0 (word (2 ^ 52 + 2 ^ 49 + 2 ^ 24))).set 6 1
theorem test_hyps_launch_lines :
    notFree (busyAt (sQueue mapDesc) 0x30000) (launchVisits (busyAt (sQueue mapDesc) 0x30000) 1 (queuedLaunch mapDesc)) = true ∧
    notFree (sQueue mapDesc) (launchVisits (sQueue mapDesc) 1 (queuedLaunch mapDesc)) = false ∧
    (readLaunch (sQueue mapDesc) 1 (queuedLaunch mapDesc)).isSome = true ∧
    notFree (sQueue mapDesc) (recordVisits (sQueue mapDesc) 1 (queuedLaunch mapDesc)) = false ∧
    selfDependent (queuedLaunch selfDesc) = true ∧
    notFree (sQueue selfDesc) (recordVisits (sQueue selfDesc) 1 (queuedLaunch selfDesc)) = false ∧
    watchedCounters (sQueue waitDesc) 1 = [0x48000] ∧ watchedCounters (sQueue mapDesc) 1 = [] ∧
    (placeStep (busyAt (sQueue mapDesc) 0x30000) 1).map Prod.snd = some false ∧ (placeStep (sQueue mapDesc) 1).map Prod.snd = some true := by
  and_intros <;> decide +kernel
def sEnds (a : State → Nat → State) : State := a { sMap1 7 id with flotillas := [(1, { aFlotilla with launch := queuedLaunch mapDesc })] } 0x40000
theorem test_hyps_retirement_lines :
    retireReady (sEnds fun s _ => s) 1 = true ∧ retireReady (sEnds busyAt) 1 = false ∧ retireReady (sEnds ownedAt) 1 = true ∧
    notFree (sEnds ownedAt) (retireVisits (sEnds ownedAt) { aFlotilla with launch := queuedLaunch mapDesc }) = true ∧
    notFree (sEnds fun s _ => s) (retireVisits (sEnds fun s _ => s) { aFlotilla with launch := queuedLaunch mapDesc }) = false := by and_intros <;> decide +kernel
theorem test_hyps_change_lines :
    notFree (busyAt (sQueue mapDesc) 0x30000) (changeVisits (busyAt (sQueue mapDesc) 0x30000) 0 1) = true ∧
    notFree (sQueue mapDesc) (changeVisits (sQueue mapDesc) 0 1) = false ∧ changing s0 [0] = false ∧
    tenantFor s0 1 aFlotilla 1 = none ∧ (tenantFor (sQueue mapDesc) 1 aFlotilla 1).isNone = true := by and_intros <;> decide +kernel

def sHalted : State := modPkg (sMap1 7 fun p => { p with halted := true }) fun p => { p with ready := true, vfs := [(1, { Vf.unbound with part := 1 })] }
theorem test_hyps_restart_lines :
    notFree (busyAt sHalted 0x20000) (restartVisits (busyAt sHalted 0x20000) 1) = true ∧ notFree sHalted (restartVisits sHalted 1) = false ∧
    notFree (busyAt sHalted 0x20000) (enableVisits (busyAt sHalted 0x20000)) = true ∧ notFree sHalted (enableVisits sHalted) = false ∧
    boundVf sHalted 1 = some 1 ∧ boundVf s0 1 = none := by and_intros <;> decide +kernel

def sHot (a : State → State) : State := a (modPkg s0 fun p => { p with hotCtl := 0x80000000, hotBase := 0x1000 })
theorem test_hyps_hotness_lines :
    hotPlace (sHot id) 0 = 0x1000 ∧ hotPlace s0 0 = 0 ∧ hotVisits (sHot id) 0 = [] ∧ (hotCtrl (sHot id) 0).phase = 0 ∧
    notFree (sHot fun s => ownedAt s 0x1000) (hotVisits (sHot fun s => ownedAt s 0x1000) 0) = true ∧
    inHotArea (sHot id) 0x1000 = true ∧ inHotArea (sHot id) 0x21800 = false ∧ inHotArea s0 0 = false := by and_intros <;> decide +kernel

/-! ### Cores that give slots away -/

def sJw : State := bent (.wait (.jwait 2 1))
theorem test_hyps_served_slots :
    served s0 1 = s0 ∧ served (bent (.wait (.spawn 2))) 1 = bent (.wait (.spawn 2)) ∧ (cluster s0 0).touches = [] ∧ (Machine.core s0 1).drain = [] ∧
    toHandOver { s0 with flotillas := [(0, { aFlotilla with next := some 0 })] } 0 = [0] ∧
    (grantOne (modCore s0 1 fun c => { c with spawnQ := [.spawn aSpawn], aged := true }) 1).isSome = true ∧
    (jwaiter sJw 0 1).isSome = true ∧ (landedFor s0 0 (.slotGrant 0)).isNone = true ∧
    nextTaken (withJobs s0 [{ job 1 0x10 with aged := true }]) 0 false = some { job 1 0x10 with aged := true } := by and_intros <;> decide +kernel

/-! ### Hypotheses of the statements on checks, buffered accesses, queues, tables, homes and the package -/

/-- R154 to R158: each field of each shape the first that is out, and the sources and destinations that STREAM-STATE and
QUEUE-ORDER refuse. -/
theorem test_hyps_window_shapes :
    OutGroup t0 15 2 ∧ OutGroup t0 13 4 ∧ ¬ OutGroup t0 12 4 ∧ OutX t0 16 ∧ ¬ OutX t0 15 ∧ firstOut t0 15 = 16 ∧ firstOut t0 20 = 20 ∧
    OutV { t0 with lsz := 8 } 8 ∧ ¬ OutV { t0 with lsz := 8 } 7 ∧ Plain t0 0 := by
  and_intros <;> first | decide +kernel | (unfold OutGroup; decide +kernel) | (unfold OutX; decide +kernel) | (unfold OutV; decide +kernel) |
    exact Or.inr (by decide +kernel)
theorem test_hyps_no_stream : NoSource t0 112 0x1B ∧ NoSource t0 124 0x19 ∧ NoDest t0 123 0x1B ∧
    NoDest (setQueues t0 .u { ld := [], sd := List.replicate 16 0, addrs := [] }) 125 0x19 := by
  refine ⟨Or.inl ⟨by decide, by decide, rfl, fun st h => ?_⟩, Or.inr ⟨rfl, rfl, rfl⟩, Or.inl ⟨by decide, by decide, rfl, fun st h => ?_⟩,
    Or.inr ⟨rfl, rfl, by decide +kernel⟩⟩ <;>
  exact absurd ((show find t0.streams _ = none by decide +kernel).symm.trans h) nofun
theorem test_window_shapes : trapsWith (.segld 3 15) (sl .s) 0x02 = true ∧ trapsWith (.jsub 2 13) s0 0x02 = true ∧
    trapsWith (.vaddI32 8 0 1 false) (setThr s0 0 { t0 with lsz := 8 }) 0x02 = true ∧ trapsWith (.add 2 112 0) s0 0x1B = true ∧
    trapsWith (.add 2 124 0) s0 0x19 = true := by decide +kernel

/-- R20, R21: a null segment, rights 0x1F without one of them, an offset that is misaligned, past the limit, or of a cluster
outside the access set; the atomics on LANE. -/
def sBad (g : Seg) : State := setThr s0 0 { t0 with segs := t0.segs.set 3 g }
def sFar : State := modCluster (sBad (seg 31 6 0x1000 1 0x1000)) 0 fun c => { c with acc := 1 }
theorem test_hyps_address_checks :
    AccessFails (sBad { s0 := 0, s1 := 0 }) 3 .load 0 4 0x10 3 ∧ AccessFails s0 1 .atomic 0 4 0x11 1 ∧
    AccessFails (sBad (seg 30 4 0 0 0x1000)) 3 .load 8 4 0x12 8 ∧ AccessFails (sBad (seg 29 4 0 0 0x1000)) 3 .store 8 4 0x12 8 ∧
    AccessFails s0 3 .load 2 4 0x13 2 ∧ AccessFails s0 3 .store 0x1000 8 0x14 0x1000 ∧ AccessFails sFar 3 .load 0 4 0x15 1 ∧
    Issues s0 t0 ∧ Checked [.src 15, .dst 2] (sBad { s0 := 0, s1 := 0 }) := by
  and_intros <;> first | exact issues_s0 | exact ok_eq (by decide +kernel) |
    (unfold AccessFails SegmentFails mayUse rightBit; decide +kernel) | decide +kernel
theorem test_hyps_lane_checks :
    LanesFail sp 3 .vload 0xFE0 (fun l => 0xFE0 + BitVec.ofNat 64 (4 * l)) true 0x14 0x101C ∧
    LanesFail (setThr sp 0 { tv with vp := 0 }) 6 .vstore 0 (fun _ => 0) true 0x11 6 := by
  refine ⟨Or.inl ⟨15, by decide +kernel, ?_, ?_⟩, Or.inr ⟨by decide +kernel, ?_⟩⟩
  · simp only [AccessFails, SegmentFails, mayUse, rightBit]; decide +kernel
  · simp only [Passes]; decide +kernel
  · simp only [SegmentFails, mayUse, rightBit]; decide +kernel
theorem test_address_traps : trapsWith (.ldd 2 15 3 1) (sBad { s0 := 0, s1 := 0 }) 0x10 = true ∧
    trapsWith (.aadd 2 15 false .th .plain 1) s0 0x11 = true ∧ trapsWith (.stqw 15 3 0) (sBad (seg 29 4 0 0 0x1000)) 0x12 = true ∧
    trapsWith (.lda 2 15 3 false .di 0) sFar 0x15 = true ∧ trapsWith (.vld 2 15 3 true) (setThr sp 0 { tv with regs := tv.regs.set 15 0xFE0 }) 0x14 = true := by
  decide +kernel

/-- R90, R107, R214: an atomic on CHIP with nothing of the thread or the core before it. -/
theorem test_hyps_buffered_atomic :
    Checked [.src 15, .both 2] s0 ∧ Passes s0 ((3 : BitVec 2).setWidth 3) .atomic 0xFF8 8 ∧ atIssue (kindAt s0 3) = false ∧ (self s0).outs = [] ∧
    ownBuffered s0 s0.cur = false ∧ unackedLocal s0 0 = [] ∧ atomicOut s0 0 = false ∧ (self s0).regs.length ≤ 112 ∧ outCount (self s0) < 8 := by
  and_intros <;> first | exact ok_eq (by decide +kernel) | decide +kernel | (unfold Passes; decide +kernel)
theorem test_atomic_sent : nextWith (exec (.aadd 2 15 true .di .acq 3) s0)
    (fun s => (self s).outs.length == 1 && s.due.length == 1 && s.mem == [] && (self s).pc == 4) = true := by decide +kernel

/-- R84: an address that waits for data and a data word that waits for an address, at issue and buffered. -/
def qAddr (k : Kind) : QAddr := { kind := k, tgt := 0, addr := 0x1000, size := 4 }
def sPair (k : Kind) : State := setThr s0 0 (setQueues t0 .u { ld := [], sd := [], addrs := [qAddr k] })
def sData : State := setThr s0 0 (setQueues t0 .u { ld := [], sd := [7], addrs := [] })
theorem test_hyps_pairing :
    (∀ k ∈ [Kind.core, .glob], (queuesOf (self (sPair k)) .u).addrs = [qAddr k] ∧ (queuesOf (self (sPair k)) .u).sd = [] ∧
      MayStore (setThr (sPair k) 0 (setQueues (self (sPair k)) .u { ld := [], sd := [], addrs := [] })) (qAddr k)) ∧
    (queuesOf (self sData) .u).sd = [7] ∧ (queuesOf (self sData) .u).addrs = [] ∧ Passes sData 0 .store (scaled 0 4 0) 4 := by
  unfold MayStore Touchable Passes; decide +kernel
theorem test_pairing :
    nextWith (exec (.add 125 0 127) (sPair .core)) (fun s => readBytes s.mem (corePlace 0 0x1000) 4 == [84, 0, 0, 0] && (queuesOf (self s) .u).addrs == []) = true ∧
    nextWith (exec (.stqw 15 0 0) sData) (fun s => readBytes s.mem (corePlace 0 0x1000) 4 == [7, 0, 0, 0] && (queuesOf (self s) .u).sd == []) = true ∧
    nextWith (exec (.add 125 0 127) (sPair .glob)) (fun s => s.mem == [] && (Machine.core s 0).sb.length == 1) = true := by decide +kernel
theorem test_hyps_queue_load_later : Passes s0 4 .load (scaled 0 8 0) 8 ∧ atIssue (kindAt s0 4) = false ∧ (queuesOf (self s0) .u).ld.length < 16 ∧
    forward s0 s0.cur (refAt (self s0) 4 (scaled 0 8 0) 8) = .none := by unfold Passes; decide +kernel

/-- R351, R352: a thread of which no touch waits; one that is in its handler with a trap pending. -/
theorem test_hyps_trap_entry : (thr (sl .u) 0).map (·.inh) = some false ∧ (cluster (sl .u) 0).touches = [] ∧ (thr sPend 0).map (·.inh) = some true ∧
    (self sPend).pend ≠ [] ∧ (self sPend).stalled = [] ∧ (atLevel .s).stalled = [] := by decide +kernel
theorem test_async_held : (deliverAsync sPend 0 == sPend) = true := by decide +kernel

/-- R48: no earlier request of the core to a slice, and one. -/
theorem test_hyps_may_act :
    requestsOut (sTable .open_ 0 []) 0 (fun _ => true) = false ∧
    requestsOut (post (sTable .open_ 0 []) (.requestAtHome 3 (acc (.load 0) (.read 4) 0x10000))) 0 (fun h => h == 3) = true ∧
    requestsOut (post (sTable .open_ 0 []) (.requestAtHome 3 (acc (.load 0) (.read 4) 0x10000))) 0 (fun h => h == 2) = false ∧
    (self (sTable .open_ 0 [aFrame])).results = [] ∧ requestsOut sTow 0 (fun _ => true) = false ∧
    countFor sSluice 0 (self sSluice) false 0 = 1 := by decide +kernel
theorem test_table_waits_for_requests :
    nextWith (exec (.trel 2) (post (sTable .open_ 0 []) (.requestAtHome 0 (acc (.load 0) (.read 4) 0x10000))))
      (fun s => (self s).status == .wait .retry && (self s).cursors.length == 1) = true := by decide +kernel

/-- R28, R386: the lines of a stack and of the CXL tier; a line that an expander's read is awaited for. -/
def cxlLine : Nat := 2 ^ 32
def uncached : Access := { acc (.load 0) (.read 4) (2 ^ 39) with cache := 2 }
def sAwait : State := post s0 (.expanderRead 0 uncached [0, 0, 0, 0] [])
def sFilling (w : Bool) : State :=
  let x : HomeLine := { newLine 1 cxlLine 0 with filling := !w, memWait := w, data := if w then some (List.replicate 128 7) else none }
  post (modSlice s0 0 fun z => { z with lines := [x] }) (.memoryReplyAtHome 0 1 cxlLine)
theorem test_hyps_cxl :
    (channelOf 512).isSome = true ∧ channelOf cxlLine = none ∧ (slice s0 0).noRoom = [] ∧ lineAt s0 0 1 cxlLine = none ∧ uncached.phys / 128 = cxlLine ∧
    awaitedRead sAwait 0 1 cxlLine = some (.expanderRead 0 uncached [0, 0, 0, 0] []) ∧ awaitedRead s0 0 1 cxlLine = none ∧
    (∀ w ∈ [true, false], (sFilling w).due.contains (.memoryReplyAtHome 0 1 cxlLine) = true ∧
      (lineAt (sFilling w) 0 1 cxlLine).map (fun x => (x.filling, x.memWait)) = some (!w, w)) ∧
    awaitedWrite (post s0 (.expanderWrite 1 cxlLine [1])) 1 cxlLine = some (.expanderWrite 1 cxlLine [1], [1]) ∧ awaitedWrite s0 1 cxlLine = none ∧
    s0.due = [] := by decide +kernel
theorem test_cxl_read_lost : nextWith (exec (.cxlResponseTimeout 0 1 cxlLine false) sAwait)
    (fun s => s.pkg.ue == 1 && s.due.length == 1 && s.due.all fun e => match e with
      | .loadDataArrives _ _ _ ⟨.poison _ bad, _⟩ => bad == [0, 1, 2, 3]
      | _ => false) = true := by decide +kernel
theorem test_cxl_write_lost : nextWith (exec (.cxlResponseTimeout 0 1 cxlLine true) (post s0 (.expanderWrite 1 cxlLine [1])))
    (fun s => s.pkg.ue == 1 && s.poison.length == 16 && poisoned s (2 ^ 39 + 64) 4 && !poisoned s (2 ^ 39) 64) = true := by decide +kernel
theorem test_cxl_timeout_of_a_stack : nextWith (exec (.cxlResponseTimeout 0 1 512 true) sAwait) (fun s => s == sAwait) = true := by decide +kernel

/-- R118, R119, R135: the tags and the towline states that decide what becomes of a tow and of its report. -/
def regTag : LineTag := { aTag 3 1 with reg := true }
theorem test_hyps_tows :
    (if regTag.fp then regTag.v else BitVec.allOnes 32) &&& ~~~ regTag.dm ≠ 0 ∧ regTag.reg = true ∧ (aTag 3 1).reg = false ∧ sliceStep s0 3 5 = .closed ∧
    sliceStep (modSlice s0 3 fun z => { z with steps := [(5, .replaying)] }) 3 5 = .replaying ∧
    inHotArea s0 (512 * 128) = false := by decide +kernel

/-- R361, R347: a spawn of a flotilla that is handed over. -/
def sHeld (n : Nat) : State := { s0 with flotillas := [(0, { aFlotilla with
  suspended := true, shares := [{ shareOf s0 1 with spawnQ := List.replicate n (.spawn aSpawn) }] })] }
theorem test_hyps_spawn_away : flotillaHeld (sHeld 7) 0 = true ∧ awayCount (sHeld 7) 1 0 = 7 ∧ awayCount (sHeld 8) 1 0 = 8 ∧ flotillaHeld s0 0 = false := by
  decide +kernel

/-- R281: every other participant of a set of two, and none. -/
theorem test_hyps_collective : (job 1 0x20).cutOff = false ∧ whole { job 1 0x20 with c3 := 1 } 0 [] = true ∧ whole { job 1 0x20 with c3 := 3 } 0 [] = false := by
  decide +kernel

/-- R387, R389, R393, R395: a port that is up and one that is down; errors in each kind of place; a self-test with and without a
spare; the phases in which a report is given. -/
def aTest (str : Nat) (spare : Bool) : RowTest := { str := str, adr := 0, unit := 0, cid := 1, spare := spare }
theorem test_hyps_repairs :
    s0.pkg.portsDown.contains 3 = false ∧ (modPkg s0 fun p => { p with portsDown := [3] }).pkg.portsDown.contains 3 = true ∧
    windowSlot s0 (.window 0 0) = some 0 ∧ windowSlot s0 (.memory 0x10000) = none ∧ unmetAt (.memory 0x10004) = some 0x10000 ∧
    unmetAt (.window 0 0) = none ∧ poisoned s0 0x10000 4 = false ∧ poisoned (poisonAt s0 (.memory 0x10000)) 0x10000 4 = true ∧
    (errorAt s0 (.window 0 0) 2).isSome = true ∧ (errorAt s0 (.memory 0x10000) 1).isSome = true ∧ (errorAt s0 (.l1 0 1 0x10000) 2).isNone = true ∧
    (modPkg s0 fun p => { p with tests := [aTest 4 true] }).pkg.tests.find? (fun t => t.str == 4) = some (aTest 4 true) ∧
    retiredWays s0 4 (retireUnit (aTest 4 true)) + 1 < cacheWays 4 ∧ (modPkg s0 fun p => { p with phase := 4 }).pkg.phase = 4 ∧ s0.pkg.phase ≠ 4 ∧
    crosses s0 (routeOf s0 1) { job 1 0x20 with c3 := 3 } = false := by
  and_intros <;> first | decide +kernel | rfl
theorem test_error_in_window : (match execErrorFound (.window 0 0) true s0 with
    | .next s => (thr s 0).isNone && s.pkg.ue == 1 | .fault _ => false | .refused _ => false) = true := by decide +kernel
theorem test_error_hidden : (match execErrorHidden (.memory 0x10004) s0 with
    | .next s => s.poison.length == 8 && s.unlogged == [0x10000] && s.pkg.ue == 0 && s.pkg.tests == [] &&
        (meet s 0x10010 4).pkg.ue == 1 && (meet s 0x10020 4).pkg.ue == 0
    | .fault _ => false | .refused _ => false) = true := by decide +kernel
theorem test_error_corrected : (match execErrorFound (.memory 0x10000) false s0 with
    | .next s => s.poison == [] && s.pkg.ue == 0 && s.pkg.tests.length == 1 | .fault _ => false | .refused _ => false) = true := by decide +kernel
theorem test_march_test : nextWith (exec (.marchTestComplete 0 0 0 1 true false) (modPkg s0 fun p => { p with tests := [aTest 0 false] }))
    (fun s => s.pkg.deg && s.pkg.tests == []) = true := by decide +kernel
theorem test_no_report_in_recovery : nextWith (exec (.attestationReport 5) (modPkg s0 fun p => { p with phase := 4 })) (fun s => s.pkg.report.isNone) = true := by
  decide +kernel

/-! ### Hypotheses of what was widened last -/

/-- R186: two entries of the inbox, the first read by another thread's waiting instruction. -/
def sRead : State := modCore (setThr s0 1 { t0 with pops := [(126, 5)] }) 0 fun c => { c with inbox := [5, 6] }
theorem test_hyps_inbox :
    ((siblings sRead).flatMap fun p => ibNotes p.2).foldl List.erase (Machine.core sRead 0).inbox = [6] ∧ fld (6 : Word) 63 60 ≠ 1 ∧
    (Machine.core sRead 0).ibWait = [] ∧ (Machine.core sRead 0).inboxOver = [] ∧ (thr sRead sRead.cur).map (·.kept) = some [] := by decide +kernel
theorem test_inbox_passes_over : nextWith (exec (.add 2 126 127) sRead)
    (fun s => x s 2 == some 6 && (Machine.core s 0).inbox == [5]) = true := by decide +kernel

/-- R65, R102: a thread with nothing of its own under way, its core with a dirty word. -/
theorem test_hyps_wide_release : wideScope .cl = true ∧ dirtyLines sBasin 0 (fun _ => true) ≠ [] ∧ (self sBasin).outs = [] ∧
    (Machine.core sBasin 0).sb = [] ∧ (Machine.core sBasin 0).journal = [] := by decide +kernel

/-- R220, R222: each hint of a prefetch, a line with a half that the host owns, and a page that the TLB does not hold. -/
theorem test_hyps_prefetch :
    prefRead 0 ≠ prefRead 1 ∧ prefRead 1 ≠ prefRead 2 ∧ prefRead 0 ≠ prefRead 2 ∧
    { acc (.prefetch 0) (.read (prefRead 2)) 0x10000 with cache := 0 }.agent = .prefetch 0 ∧
    ([0, 1].filter fun b => halfState { aLine with hh0 := 2 } b == 2) = [0] ∧ ([0, 1].filter fun b => halfState aLine b == 2) = [] ∧
    tlbFind (cluster s0 0).tlb 1 0x10000 = none := by decide +kernel

/-- R295, R360: members of a barrier that are PARKED and saved. -/
def sAway : State :=
  let parked := { t0 with status := .parked, resume := some (.gbar 2 5 .pk 0xFFFF) }
  let c : Saved := { core := 0, slot := 0, thread := gbarWait 0xFFFF, vregs := [], wakeDue := false, held := false }
  { setThr sBarrier 4 parked with saved := [c, { c with thread := parked }, { c with thread := gbarWait 0 }] }
theorem test_hyps_barrier_away : joinWaiters sAway 5 = [] ∧
    (sAway.saved.map fun c => waitOf c.thread) = [some (.gbar 2 5 .pk 0xFFFF), some (.gbar 2 5 .pk 0xFFFF), some (.gbar 2 5 .pk 0)] ∧
    (sAway.saved.map fun c => (c.thread.status == .parked, c.wakeDue)) = [(false, false), (true, false), (false, false)] ∧
    ((thr sAway 4).bind waitOf) = some (.gbar 2 5 .pk 0xFFFF) := by decide +kernel

/-- R328: a table with an OPEN, a COMPLETE and a FAILED entry of partition 1, and one of partition 2. -/
def sFlush : State :=
  let t := { aTable .open_ 0 with
    entries := [anEntry .open_, { anEntry .complete with dfn := 2 }, { anEntry .failed with dfn := 3 },
                { anEntry .complete with dfn := 4, cid := 2, grp := 1 }, { anEntry .open_ with dfn := 5, cid := 2, grp := 1 }]
    cursors := [(0, aCursor 0), (1, { aCursor 0 with entry := 2 }), (2, { aCursor 0 with entry := 5 })] }
  modTbl (sTable .open_ 0 []) 0 fun _ => t
theorem test_hyps_flush :
    countEntries (tbl sFlush 0) 1 (fun _ => true) = 3 ∧ countEntries (tbl sFlush 0) 1 (fun e => e.st == .open_) = 1 ∧
    (find (tbl sFlush 0).cursors 1).map (·.used) = some true ∧
    (∀ e ∈ (tbl sFlush 0).entries, e.cid = 2 → e.st ≠ .failed ∧ ∀ e' ∈ (tbl sFlush 0).entries, e'.cid = 1 → e'.dfn ≠ e.dfn ∧ (e'.st = .open_ → e'.grp ≠ e.grp)) := by
  decide +kernel
theorem test_flush_cid :
    (flushCid sFlush 1).2 = 2 ∧ ((tbl (flushCid sFlush 1).1 0).entries.map fun e => (e.cid, e.dfn)) = [(2, 4), (2, 5)] ∧
    ((tbl (flushCid sFlush 1).1 0).cursors.map fun c => c.2.failed) = [true, true, false] := by decide +kernel

/-- R391: a fill that comes with every word of a load poisoned; R44: a line of four cores while the oldest record's tow is out. -/
def aRecord (y : HomeLine) : State := modSlice s0 3 fun z => { z with lines := [y, { aLine with line := 640, towing := 1 }], vecs := List.replicate 1024 (1, 640) }
theorem test_hyps_fills :
    (aMiss.joined.head?.map fun j => (List.range j.size).all fun i => [0].contains ((j.off + i) / 4)) = some true ∧
    recordWaits (sHome aLine) 3 aLine 0 = false ∧
    recordWaits (aRecord { aLine with mode := 1, ptrs := [1, 2, 3, 4] }) 3 { aLine with mode := 1, ptrs := [1, 2, 3, 4] } 0 = true ∧
    roomFirst (sHome aLine) 3 1 512 = false := by
  and_intros <;> decide +kernel
theorem test_poisoned_fill : nextWith (exec (.l1FillLands ⟨nodeSlice 3, 0⟩ 1 512 true ⟨List.replicate 128 7, [0]⟩) sMiss)
    (fun s => (Machine.core s 0).l1 == [] && s.due == [.loadDataArrives ⟨nodeCore 0, 0⟩ 0 0x10000 ⟨.poison [7, 7, 7, 7] [0, 1, 2, 3], false⟩]) = true := by
  decide +kernel
theorem test_poisoned_basin_fill : nextWith (exec (.basinFillLands ⟨nodeSlice 3, 0⟩ false 32 true ⟨List.replicate 128 9, [2]⟩) sBasin)
    (fun s => ((find (Machine.core s 0).tags 32).map fun t => (t.v, t.ill)) == some (0xFFFFFFFB, 4)) = true := by decide +kernel

/-- R284, R361: a flotilla that is being handed over, which runs on, with no creation of it before, and with one. -/
def sPassing (n : Nat) : State := { s0 with flotillas := [(0, { aFlotilla with
  next := some 1, shares := [{ shareOf s0 1 with spawnQ := List.replicate n (.spawn aSpawn) }] })] }
theorem test_hyps_may_start : MayStart s0 1 0 ∧ MayStart (sPassing 0) 1 0 ∧ ¬ MayStart (sPassing 1) 1 0 ∧ ¬ MayStart (sHeld 7) 1 0 := by
  have h : ∀ n, find (sPassing n).flotillas 0 = some { aFlotilla with
    next := some 1, shares := [{ shareOf s0 1 with spawnQ := List.replicate n (.spawn aSpawn) }] } := fun _ => rfl
  refine ⟨Or.inl (by decide +kernel), Or.inr ⟨by decide +kernel, fun f e => ?_, by decide +kernel⟩, ?_, ?_⟩
  · rw [h] at e; cases e; rfl
  · rintro (⟨e, -⟩ | ⟨-, -, e⟩) <;> revert e <;> decide +kernel
  · rintro (⟨e, -⟩ | ⟨-, -, e⟩) <;> revert e <;> decide +kernel
theorem test_spawn_while_passing : nextWith (exec (.spawnArrival aSpawn) { sPassing 0 with threads := (bent (.wait (.spawn 2))).threads })
    (fun s => x s 2 == some 0 && (thr s 64).isSome) = true := by decide +kernel

/-- R395: FIPS 205's check of one chain: sixteen digits of a message of zeros, and its checksum. -/
theorem test_checksum_digits : wotsDigits (List.replicate 32 0) = List.replicate 64 0 ++ [3, 12, 0] := by decide +kernel
end Sys2Proof.Tests
end

section
/-! PROOFS. The host at its links (spec/07_order_wide.md R117, R119; spec/27_host_links.md R340, R378 to R380): the rules of a
home's line, a host request served by an idle line, the window of PCI Express mode, the doorbell page and the host ring. -/

namespace Sys2Proof.Proofs.HostLinks
open Sys2Proof Sys2Proof.Machine Sys2Proof.Claims

variable {s : State} {h cid line half : Nat} {x : HomeLine} {d : List Byte}

/-! ### A line at its home: what is read after a change of it -/

theorem slice_modSlice_same (s : State) (h : Nat) (f : Slice → Slice) : slice (modSlice s h f) h = f (slice s h) := by
  simp [slice]

@[simp] theorem modLine_mem (s : State) (h cid line : Nat) (f : HomeLine → HomeLine) : (modLine s h cid line f).mem = s.mem := rfl
@[simp] theorem modLine_due (s : State) (h cid line : Nat) (f : HomeLine → HomeLine) : (modLine s h cid line f).due = s.due := rfl
@[simp] theorem lineAt_tick (s : State) (h cid line : Nat) : lineAt (tick s) h cid line = lineAt s h cid line := rfl

/-- A line stands under its own key. -/
theorem lineAt_key (hx : lineAt s h cid line = some x) : x.cid = cid ∧ x.line = line := by
  simpa using List.find?_some hx

theorem find?_map_if {α : Type} {p : α → Bool} {f : α → α} {l : List α} {a : α} (ha : l.find? p = some a)
    (hf : p (f a) = true) : (l.map fun b => if p b then f b else b).find? p = some (f a) := by
  induction l with
  | nil => simp at ha
  | cons b l ih =>
    by_cases hb : p b = true
    · obtain rfl : b = a := by simpa [hb] using ha
      simp [hb, hf]
    · have ha' : l.find? p = some a := by simpa [hb] using ha
      simpa [hb] using ih ha'

/-- A change that keeps the line's key is what is found there then. -/
theorem lineAt_modLine_same {f : HomeLine → HomeLine} (hx : lineAt s h cid line = some x)
    (hf : (f x).cid = x.cid ∧ (f x).line = x.line) : lineAt (modLine s h cid line f) h cid line = some (f x) := by
  obtain ⟨hc, hl⟩ := lineAt_key hx
  rw [lineAt, modLine, slice_modSlice_same]
  exact find?_map_if hx (by simp [hf, hc, hl])

/-- A change of a slice that keeps its lines changes none of them. -/
theorem lineAt_modSlice_lines {f : Slice → Slice} (hf : (f (slice s h)).lines = (slice s h).lines) :
    lineAt (modSlice s h f) h cid line = lineAt s h cid line := by
  rw [lineAt, slice_modSlice_same, hf, lineAt]

@[simp] theorem setHalf_cid (x : HomeLine) (k v : Nat) : (setHalf x k v).cid = x.cid := by unfold setHalf; split <;> rfl
@[simp] theorem setHalf_line (x : HomeLine) (k v : Nat) : (setHalf x k v).line = x.line := by unfold setHalf; split <;> rfl
@[simp] theorem setHalf_current (x : HomeLine) (k v : Nat) : (setHalf x k v).current = x.current := by unfold setHalf; split <;> rfl
@[simp] theorem setHalf_transient (x : HomeLine) (k v : Nat) : (setHalf x k v).transient = x.transient := by unfold setHalf; split <;> rfl
@[simp] theorem setHalf_data (x : HomeLine) (k v : Nat) : (setHalf x k v).data = x.data := by unfold setHalf; split <;> rfl
@[simp] theorem setHalf_dirty (x : HomeLine) (k v : Nat) : (setHalf x k v).dirty = x.dirty := by unfold setHalf; split <;> rfl

@[simp] theorem halfState_setHalf_same (x : HomeLine) (k v : Nat) : halfState (setHalf x k v) k = v := by
  by_cases hk : k = 0 <;> simp [halfState, setHalf, hk]

/-- The two halves of a line are apart. -/
theorem halfState_setHalf_other (x : HomeLine) (v : Nat) (hk : half < 2) :
    halfState (setHalf x half v) (1 - half) = halfState x (1 - half) := by
  obtain rfl | rfl : half = 0 ∨ half = 1 := by omega
  · rfl
  · rfl

/-! ### What a line does once an access is served -/

theorem finishWrite_noWrite (hx : lineAt s h cid line = some x) (hc : x.current = none) : finishWrite s h cid line = s := by
  simp [finishWrite, hx, hc]

theorem leaveUncached_cached (hx : lineAt s h cid line = some x) (ht : x.transient = false) : leaveUncached s h cid line = s := by
  simp [leaveUncached, hx, ht]

/-- A line whose write is complete: its half takes the state that the write grants. -/
def closed (k v : Nat) (x : HomeLine) : HomeLine :=
  { setHalf x k v with current := none, grant := none, tows := [], dirtyHit := false, hp := false, bad := 0 }

/-- A host's write that awaits nothing is complete: nothing is answered, and its half takes its new state (R119). -/
theorem lineAt_finishWrite_host {r : Access} {k v : Nat} (hx : lineAt s h cid line = some x) (hr : x.current = some r)
    (hs : lineSettled x = true) (he : x.evicting = false) (ha : r.agent = .host) (hg : x.grant = some (k, v))
    (hp : x.hp = false) (ht : x.tows = []) :
    lineAt (finishWrite s h cid line) h cid line = some (closed k v x) ∧ (finishWrite s h cid line).mem = s.mem ∧
      (finishWrite s h cid line).due = s.due := by
  simp only [finishWrite, hx, hr, hs, he, hp, ht, answerWrite, ha, Bool.not_true, Bool.or_false, Bool.false_eq_true, if_false,
    List.foldl_nil, modLine_mem, modLine_due, and_self, and_true]
  rw [lineAt_modLine_same hx (by simp [hg])]
  simp [hg, closed]

/-! ### A host request that an idle line serves (R117, R119) -/

/-- The access by which the host asks the home of a tracked line for a half. -/
def halfAccess (s : State) (cid line half : Nat) (req : HostReq) : Access :=
  { hostAccess s cid (line * 128 + 64 * half) none (.host half req) with
    cache := if ((pageOfLine s cid (line * 128 + 64 * half)).map TlbEntry.cache) == some 2 then 2 else 0
    tracked := true }

theorem hostRequest_tracked (hu : cxlUp s line = true) (ht : hostTracked s cid line = true) (req : HostReq) (plain : Option MemOp) :
    hostRequest s h cid line half req plain = atHome (tick s) h (halfAccess s cid line half req) := by
  simp only [hostRequest, hu, ht, Bool.not_true, Bool.false_eq_true, if_false, if_true]
  rfl

theorem hostRequest_linkDown (hu : cxlUp s line = false) (req : HostReq) (plain : Option MemOp) :
    hostRequest s h cid line half req plain = s := by simp [hostRequest, hu]

/-- An idle line serves a host request at once; then its write, if the request is one, may complete. -/
theorem atHome_idle (req : HostReq) (hk : half < 2) (hi : Idle s h cid line x d) :
    atHome (tick s) h (halfAccess s cid line half req) =
      leaveUncached (finishWrite (serveLine (tick s) h x (halfAccess s cid line half req)) h cid line) h cid line := by
  obtain ⟨hx, hb, hw, hbi, -, -, hto, htr, hd, hroom⟩ := hi
  have hline : (line * 128 + 64 * half) / 128 = line := by omega
  have hx' : lineAt (tick s) h cid line = some x := hx
  have hroom' : roomFirst (tick s) h cid line = false := hroom
  simp only [atHome, halfAccess, hostAccess, hline, hx', keptOut, hb, hto, hw, hostWaits, hbi, hroom', atHome.cachedBy, htr,
    atHome.serveOne, hd]
  rfl

/-- A request that changes the line alone, and begins no write, leaves it so changed. -/
theorem hostRequest_changesLine {req : HostReq} {f : HomeLine → HomeLine} (plain : Option MemOp) (hu : cxlUp s line = true)
    (ht : hostTracked s cid line = true) (hk : half < 2) (hi : Idle s h cid line x d)
    (hserve : serveLine (tick s) h x (halfAccess s cid line half req) = modLine (tick s) h cid line f)
    (hkey : (f x).cid = x.cid ∧ (f x).line = x.line) (hcur : (f x).current = x.current) (htr : (f x).transient = x.transient) :
    hostRequest s h cid line half req plain = modLine (tick s) h cid line f := by
  rw [hostRequest_tracked hu ht, atHome_idle req hk hi, hserve]
  obtain ⟨hx, -, -, -, hc, -, -, hx0, -, -⟩ := hi
  have hy := lineAt_modLine_same (f := f) (s := tick s) hx hkey
  rw [finishWrite_noWrite hy (hcur.trans hc), leaveUncached_cached hy (htr.trans hx0)]

/-! ### A host request that takes or writes a half (R118, R119) -/

theorem poisonCells_clean (hp : s.poison = []) (g line : Nat) (cells : List (Nat × Byte)) : poisonCells s g line cells = (s, []) := by
  simp [poisonCells, poisoned, hp]

theorem noteTowWrite_untagged {r : Access} (hr : r.handle = none) : noteTowWrite s h r line = (s, []) := by
  simp [noteTowWrite, towOf, hr]

theorem l1Probes_unrecorded (hm : x.mode = 0) (but : Option Nat) : l1Probes h x but = [] := by
  simp [l1Probes, recordedCores, hm]

theorem postAll_nil (s : State) : postAll s [] = s := by simp [postAll]

/-- A line with bytes of a write merged. -/
def merged (cells : List (Nat × Byte)) : HomeLine → HomeLine := fun x =>
  { x with data := x.data.map (fun d => mergeCells d cells), dirty := true }

/-- A line while a write of the host to it is under way, which has probed no one. -/
def opened (r : Access) : HomeLine → HomeLine := fun x =>
  { x with mode := 0, ptrs := [], clus := [], dirtyHit := false, current := some r, old := [], hp := false, bad := 0, tows := [] }

/-- R110, R119: a write of the host to a line that no one else holds merges its bytes, and probes no one. -/
theorem performWrite_alone {y : HomeLine} {r : Access} (hm : y.mode = 0) (hh : holdersOf s h y.cid y.line = []) (hp : s.poison = [])
    (ha : r.agent = .host) (ho : ofHalf r = true) (hb : r.bad = []) (hd : r.handle = none) (cells : List (Nat × Byte)) :
    performWrite s h y r cells [] =
      modSlice (modLine (modLine s h y.cid y.line (merged cells)) h y.cid y.line (opened r)) h
        fun z => { z with vecs := z.vecs.filter fun v => !(v.1 == y.cid && v.2 == y.line) } := by
  have hclean : ∀ g, (if takesHalf r = true then (s, []) else poisonCells s g y.line cells) = (s, []) := fun g => by
    rw [poisonCells_clean hp, ite_self]
  simp only [performWrite, ho, ha, hb, hh, hclean, noteTowWrite_untagged hd, l1Probes_unrecorded hm, postAll_nil, bringPoison,
    granuleMask, Bool.not_true, Bool.and_false, Bool.false_eq_true, if_false, if_true, BEq.rfl, Bool.not_false, List.filter_nil,
    List.map_nil, List.append_nil, List.foldl_nil]
  rfl

/-- The line when the host's write is under way. -/
theorem lineAt_performWrite_alone {r : Access} (hx : lineAt s h cid line = some x) (hal : Alone s h cid line x) (hp : s.poison = [])
    (ha : r.agent = .host) (ho : ofHalf r = true) (hb : r.bad = []) (hd : r.handle = none) (cells : List (Nat × Byte)) :
    let s1 := performWrite s h { x with hh0 := 0, hh1 := 0 } r cells []
    lineAt s1 h cid line = some (opened r (merged cells x)) ∧ s1.mem = s.mem ∧ s1.due = s.due := by
  obtain ⟨hm, hh⟩ := hal
  obtain ⟨rfl, rfl⟩ := lineAt_key hx
  rw [performWrite_alone (y := { x with hh0 := 0, hh1 := 0 }) hm hh hp ha ho hb hd]
  have hmerged := lineAt_modLine_same (f := merged cells) hx ⟨rfl, rfl⟩
  have hopened := lineAt_modLine_same (f := opened r) hmerged ⟨rfl, rfl⟩
  exact ⟨(lineAt_modSlice_lines rfl).trans hopened, rfl, rfl⟩

theorem lineSettled_idle (hi : Idle s h cid line x d) : lineSettled x = true := by
  obtain ⟨-, hb, -, hbi, -⟩ := hi
  simp_all [lineBusy, lineSettled]

/-- The host has written or taken a half of the line `x`: the line holds `data`, the half is in state `v` and the other as it was;
memory is as it was, and nothing more is due. -/
structure HalfWritten (s s' : State) (h cid line half : Nat) (x : HomeLine) (data : List Byte) (dirty : Bool) (v : Nat) : Prop where
  mem : s'.mem = s.mem
  due : s'.due = s.due
  held : ∃ y, lineAt s' h cid line = some y ∧ halfState y half = v ∧ halfState y (1 - half) = halfState x (1 - half) ∧
    y.data = some data ∧ y.dirty = dirty

/-- A host request that writes the line, or takes its half, completes at once on a line that no one else holds: `g` notes in the
line under way the state that the half takes at completion. -/
theorem hostRequest_writes {req : HostReq} {g : HomeLine → HomeLine} {cells : List (Nat × Byte)} {v : Nat} {dirty : Bool}
    (plain : Option MemOp) (hu : cxlUp s line = true) (ht : hostTracked s cid line = true) (hk : half < 2)
    (hi : Idle s h cid line x d) (hal : Alone s h cid line x) (hp : s.poison = [])
    (hserve : serveLine (tick s) h x (halfAccess s cid line half req) =
      modLine (performWrite (tick s) h { x with hh0 := 0, hh1 := 0 } (halfAccess s cid line half req) cells []) h cid line g)
    (hg : g (opened (halfAccess s cid line half req) (merged cells x)) =
      { opened (halfAccess s cid line half req) (merged cells x) with dirty := dirty, grant := some (half, v) }) :
    HalfWritten s (hostRequest s h cid line half req plain) h cid line half x (mergeCells d cells) dirty v := by
  obtain ⟨hx, -, -, -, -, he, -, htr, hd, -⟩ := id hi
  obtain ⟨hopen, hmem, hdue⟩ :=
    lineAt_performWrite_alone (s := tick s) (r := halfAccess s cid line half req) hx hal hp rfl rfl rfl rfl cells
  have hgrant := lineAt_modLine_same (f := g) hopen (by rw [hg]; exact ⟨rfl, rfl⟩)
  rw [hg] at hgrant
  have hset := lineSettled_idle hi
  obtain ⟨hclosed, hmem', hdue'⟩ := lineAt_finishWrite_host hgrant rfl hset he rfl rfl rfl rfl
  rw [hostRequest_tracked hu ht, atHome_idle req hk hi, hserve,
    leaveUncached_cached hclosed (by simp [closed, opened, merged, htr])]
  refine ⟨hmem'.trans hmem, hdue'.trans hdue, _, hclosed, halfState_setHalf_same _ _ _, halfState_setHalf_other _ _ hk, ?_, ?_⟩
  · simp [closed, opened, merged, hd]
  · simp [closed]

/-- R118, R119: the host takes a half for ownership, and the line is as dirty as it was. -/
theorem hostRequest_rdOwn (plain : Option MemOp) (hu : cxlUp s line = true) (ht : hostTracked s cid line = true) (hk : half < 2)
    (hi : Idle s h cid line x d) (hal : Alone s h cid line x) (hp : s.poison = []) :
    ∃ data, HalfWritten s (hostRequest s h cid line half .rdOwn plain) h cid line half x data x.dirty 2 := by
  obtain ⟨hx, -⟩ := id hi
  obtain ⟨rfl, rfl⟩ := lineAt_key hx
  exact ⟨_, hostRequest_writes (g := fun l => { l with dirty := x.dirty, grant := some (half, 2) }) plain hu ht hk hi hal hp rfl rfl⟩

/-- R119: the host writes a half, which takes the state that it states. -/
theorem hostRequest_wr (data : List Byte) (m : Nat) (plain : Option MemOp) (hu : cxlUp s line = true)
    (ht : hostTracked s cid line = true) (hk : half < 2) (hi : Idle s h cid line x d) (hal : Alone s h cid line x)
    (hp : s.poison = []) :
    HalfWritten s (hostRequest s h cid line half (.wr data m) plain) h cid line half x
      (mergeCells d (cellsAt (line * 128 + half * 64) (data.take 64))) true m := by
  obtain ⟨hx, -⟩ := id hi
  obtain ⟨rfl, rfl⟩ := lineAt_key hx
  exact hostRequest_writes (g := fun l => { l with grant := some (half, m) }) plain hu ht hk hi hal hp rfl rfl

theorem hostRequest_rdShared (plain : Option MemOp) (hu : cxlUp s line = true) (ht : hostTracked s cid line = true) (hk : half < 2)
    (hi : Idle s h cid line x d) :
    hostRequest s h cid line half .rdShared plain = modLine (tick s) h cid line fun l => setHalf l half 1 := by
  obtain ⟨hx, -⟩ := id hi
  obtain ⟨rfl, rfl⟩ := lineAt_key hx
  exact hostRequest_changesLine plain hu ht hk hi rfl (by simp) (by simp) (by simp)

theorem hostRequest_inv (plain : Option MemOp) (hu : cxlUp s line = true) (ht : hostTracked s cid line = true) (hk : half < 2)
    (hi : Idle s h cid line x d) :
    hostRequest s h cid line half .inv plain =
      modLine (tick s) h cid line fun l => if halfState l half == 1 then setHalf l half 0 else l := by
  obtain ⟨hx, -⟩ := id hi
  obtain ⟨rfl, rfl⟩ := lineAt_key hx
  refine hostRequest_changesLine plain hu ht hk hi rfl ?_ ?_ ?_ <;> split <;> simp

/-! ### The host's events at a line (R117, R119) -/

/-- A MemInv asks its home about a line that the home knows. -/
theorem execHostMeminv_line (hx : lineAt s h cid line = some x) :
    execHostMeminv h cid line half s = .next (hostRequest s h cid line half .inv none) := by simp [execHostMeminv, hx]

/-- A MemWr of a half that is not being back-invalidated is performed as a request. -/
theorem execHostMemwr_request (data : List Byte) (m : Nat) (hx : lineAt s h cid line = some x) (hm : mergesInto x half = false)
    (hh : inHotArea s (line * 128) = false) :
    execHostMemwr h cid line half data m s = .next (hostRequest s h cid line half (.wr data m)
      (some (.write (cellsAt (line * 128 + half * 64) (data.take 64))))) := by
  simp [execHostMemwr, hx, hh, hm]

theorem mergesInto_notOwned (hn : halfState x half ≠ 2) : mergesInto x half = false := by simp [mergesInto, hn]

/-- The hotness area takes no write of the host (R55). -/
theorem execHostMemwr_hotArea (data : List Byte) (m : Nat) (hh : inHotArea s (line * 128) = true) :
    execHostMemwr h cid line half data m s = .next s := by
  unfold execHostMemwr
  split <;> simp [hh]

/-- A MemWr over no link writes nothing. -/
theorem execHostMemwr_linkDown (data : List Byte) (m : Nat) (hu : cxlUp s line = false) :
    execHostMemwr h cid line half data m s = .next s := by
  unfold execHostMemwr
  split <;> simp [hu, hostRequest_linkDown]

theorem execHostMeminv_linkDown (hu : cxlUp s line = false) : execHostMeminv h cid line half s = .next s := by
  unfold execHostMeminv
  split <;> simp [hu, hostRequest_linkDown]

/-- R119: the bytes of a half that is being back-invalidated are merged at once. -/
theorem execHostMemwr_merges (data : List Byte) (m : Nat) (hx : lineAt s h cid line = some x) (hu : cxlUp s line = true)
    (hm : mergesInto x half = true) (hh : inHotArea s (line * 128) = false) :
    execHostMemwr h cid line half data m s =
      .next (modLine (poisonCells s 4 line (cellsAt (line * 128 + half * 64) (data.take 64))).1 h cid line
        (merged (cellsAt (line * 128 + half * 64) (data.take 64)))) := by
  simp only [execHostMemwr, hx, hu, hh, hm, Bool.and_self, Bool.false_eq_true, if_false, if_true]
  rfl

/-- A line whose host has answered a back-invalidation of a half. -/
def biAnswered (s : State) (h cid line half : Nat) (b : BackInv) : State :=
  modLine s h cid line fun l => setHalf { l with bi := dropBi half l.bi } half (if b.inv then 0 else 1)

/-- An answer that someone waits for is told (R115). -/
theorem execBackInvalidationResponse_told (shared : Bool) {b : BackInv} {who : Agent} {tx : Nat} (hx : lineAt s h cid line = some x)
    (hb : (x.bi.find? fun b => b.half == half) = some b) (hd : b.done = some (who, tx)) :
    execBackInvalidationResponse h cid line half shared s =
      .next (settleLine (hostDoneDue (biAnswered s h cid line half b) h cid line who tx) h cid line) := by
  simp only [execBackInvalidationResponse, hx, hb, hd, biAnswered]

theorem execBackInvalidationResponse_untold (shared : Bool) {b : BackInv} (hx : lineAt s h cid line = some x)
    (hb : (x.bi.find? fun b => b.half == half) = some b) (hd : b.done = none) :
    execBackInvalidationResponse h cid line half shared s = .next (settleLine (biAnswered s h cid line half b) h cid line) := by
  simp only [execBackInvalidationResponse, hx, hb, hd, biAnswered]

/-! ### The window of PCI Express mode (R378, R379) -/

/-- A read within one line is one piece. -/
theorem barPieces_read_oneLine {pa m : Nat} (hm : 0 < m) (hl : m ≤ 128 - pa % 128) : barPieces pa (.read m) = [(pa, .read m)] := by
  have hmin : Nat.min m (128 - pa % 128) = m := Nat.min_eq_left hl
  have hne : m ≠ 0 := by omega
  simp [barPieces, barPieces.pieces128, hmin, hne]

theorem execBarWindowAccess_closed {n addr : Nat} {op : MemOp} {v : Vf} {p : Part} (hv : find s.pkg.vfs n = some v)
    (hp : part s v.part = some p) (hc : s.pkg.link0 ≠ .pcie ∨ p.hsize * 2 ^ 16 < barEnd addr op) :
    execBarWindowAccess n addr op s = .next s := by
  have hno : ¬(s.pkg.link0 = .pcie ∧ barEnd addr op ≤ p.hsize * 2 ^ 16) := by
    rintro ⟨hl, he⟩
    exact hc.elim (absurd hl) (Nat.not_lt.2 he)
  simp only [execBarWindowAccess, hv, hp, if_neg hno]

/-- A read of the window within one line is sent uncached to its home. -/
theorem execBarWindowAccess_read {n addr m : Nat} {v : Vf} {p : Part} (hv : find s.pkg.vfs n = some v)
    (hp : part s v.part = some p) (hlink : s.pkg.link0 = .pcie) (hm : 0 < m) (hend : addr + m ≤ p.hsize * 2 ^ 16)
    (hl : m ≤ 128 - (p.hbase * 2 ^ 16 + addr) % 128) :
    execBarWindowAccess n addr (.read m) s =
      (let pa := p.hbase * 2 ^ 16 + addr
       let home := homeFor s v.part pa
       .next (post (tick s) (.requestAtHome (homeSlice home pa) (hostAccess s v.part pa home (.read m))))) := by
  have hopen : s.pkg.link0 = .pcie ∧ barEnd addr (.read m) ≤ p.hsize * 2 ^ 16 := ⟨hlink, hend⟩
  simp only [execBarWindowAccess, hv, hp, if_pos hopen, barPieces_read_oneLine hm hl]
  rfl

/-! ### The doorbell page (R379, R380) -/

section
variable {n : Nat} {tail : BitVec 32} {p : Part}

theorem execDoorbellTail_halted (hp : part s (vf s n).part = some p) (hh : p.halted = true) :
    execDoorbellTail n tail s = .next s := by simp [execDoorbellTail, hp, hh]

theorem execDoorbellTail_beyond (hp : part s (vf s n).part = some p) (hh : p.halted = false) (he : s.pkg.vfEnable = true)
    (hr : 2 ^ p.rn < (tail.toNat + 2 ^ 32 - p.head) % 2 ^ 32) :
    execDoorbellTail n tail s = .next (modVf s n fun v => { v with rerr := true }) := by
  simp only [execDoorbellTail, hp, hh, he, if_pos hr]
  rfl

theorem execDoorbellTail_admits (hp : part s (vf s n).part = some p) (hh : p.halted = false) (he : s.pkg.vfEnable = true)
    (hr : (tail.toNat + 2 ^ 32 - p.head) % 2 ^ 32 ≤ 2 ^ p.rn) :
    execDoorbellTail n tail s = .next (postAll
      (modPart (modVf s n fun v => { v with tail := tail.toNat }) (vf s n).part fun p => { p with tail := tail.toNat })
      [.hostRingSlot (vf s n).part, .counterPoll (vf s n).part]) := by
  simp only [execDoorbellTail, hp, hh, he, if_neg (Nat.not_lt.2 hr)]
  rfl

end

/-! ### The host ring (R340, R341) -/

theorem execHostRingSlot_asks (hn : notFree s (ringVisits s cid) = true) :
    execHostRingSlot cid s = .next (post (recallAll s (ringVisits s cid)) (.hostRingSlot cid)) := by
  simp [execHostRingSlot, visit, whenFree, hn]

/-- Once its lines are free, the event visits them and takes the next slot. -/
theorem execHostRingSlot_takes {s2 : State} (hn : notFree s (ringVisits s cid) = false)
    (ht : takeRingSlot ((ringVisits s cid).foldl noteVisit s) cid = some s2) : execHostRingSlot cid s = .next s2 := by
  simp [execHostRingSlot, visit, whenFree, hn, ht]

theorem execHostRingSlot_stays (hn : notFree s (ringVisits s cid) = false)
    (ht : takeRingSlot ((ringVisits s cid).foldl noteVisit s) cid = none) :
    execHostRingSlot cid s = .next ((ringVisits s cid).foldl noteVisit s) := by
  simp [execHostRingSlot, visit, whenFree, hn, ht]

section
variable {p : Part} {ds : List Word} {i : Nat}

theorem takeRingSlot_empty (hp : part s cid = some p) (he : p.head = p.tail) : takeRingSlot s cid = none := by
  simp [takeRingSlot, hp, ringSlot, he]

/-- A good descriptor enters its queue, if that has room. -/
theorem takeRingSlot_good (hp : part s cid = some p) (hd : ringSlot s cid p = some ds) (hg : descBad ds = none) :
    takeRingSlot s cid = (enterLaunch s cid ds).map fun e => advanceHead e.1 cid := by
  simp [takeRingSlot, hp, hd, hg]

/-- A bad descriptor that names no status record is passed over. -/
theorem takeRingSlot_badSilent (hp : part s cid = some p) (hd : ringSlot s cid p = some ds) (hb : descBad ds = some i)
    (hz : fld (ds.getD 4 0) 51 0 = 0) : takeRingSlot s cid = some (advanceHead s cid) := by
  simp only [takeRingSlot, hp, hd, hb, hz, Option.bind_some, Option.isSome_some, if_true]

/-- A bad descriptor gets its status record, and is passed over. -/
theorem takeRingSlot_badRecorded {s2 : State} (hp : part s cid = some p) (hd : ringSlot s cid p = some ds) (hb : descBad ds = some i)
    (hz : fld (ds.getD 4 0) 51 0 ≠ 0) (hs : partStore s cid (fld (ds.getD 4 0) 51 0) (word 2) = some s2) :
    takeRingSlot s cid = some (advanceHead s2 cid) := by
  simp only [takeRingSlot, hp, hd, hb, hz, hs, Option.bind_some, Option.isSome_some, if_true, if_false, Option.getD_some]

end

/-! ### The statement -/

/-- Settles O50: an idle line serves a host request at once, a write of one with no other holder completing with it; the other
clauses are the events' own cases. -/
theorem hostLinkEvents : Obligations.HostLinkEvents := by
  unfold Obligations.HostLinkEvents
  refine ⟨?_, ?_, ?_, ?_, ?_, ?_, ?_, ?_, ?_, ?_, ?_, ?_, ?_⟩
  · intro h cid line half s x d hu ht hk hi
    obtain ⟨hx, -⟩ := id hi
    exact ⟨congrArg Host.Outcome.next (hostRequest_rdShared _ hu ht hk hi),
      (execHostMeminv_line hx).trans (congrArg Host.Outcome.next (hostRequest_inv _ hu ht hk hi))⟩
  · intro h cid line half s x d hu ht hk hi hal hp
    obtain ⟨hx, -⟩ := id hi
    refine ⟨?_, fun data m hn hh => ?_⟩
    · obtain ⟨_, hmem, hdue, y, hy, hhalf, hother, -, hdirty⟩ := hostRequest_rdOwn (some (.read 64)) hu ht hk hi hal hp
      exact ⟨_, y, rfl, hy, hhalf, hother, hdirty, hmem, hdue⟩
    · obtain ⟨hmem, -, y, hy, hhalf, -, hdata, hdirty⟩ := hostRequest_wr data m
        (some (.write (cellsAt (line * 128 + half * 64) (data.take 64)))) hu ht hk hi hal hp
      exact ⟨_, y, execHostMemwr_request data m hx (mergesInto_notOwned hn) hh, hy, hhalf, hdata, hdirty, hmem⟩
  · intro h cid line half data m s x hu hx hd hown hbi hh
    have hm : mergesInto x half = true := by simpa [mergesInto, hd, hown] using hbi
    exact execHostMemwr_merges data m hx hu hm hh
  · intro h cid line half data m s hu
    exact ⟨congrArg Host.Outcome.next (hostRequest_linkDown hu _ _), congrArg Host.Outcome.next (hostRequest_linkDown hu _ _),
      execHostMeminv_linkDown hu, execHostMemwr_linkDown data m hu⟩
  · exact fun h cid line half data m s hh => execHostMemwr_hotArea data m hh
  · exact fun _ _ _ _ _ => rfl
  · intro h cid line half shared s x b hx hb
    exact ⟨fun who tx hd => execBackInvalidationResponse_told shared hx hb hd, execBackInvalidationResponse_untold shared hx hb⟩
  · intro n addr s v p m hv hp hlink hm hend pa home hl
    exact execBarWindowAccess_read hv hp hlink hm hend hl
  · exact fun n addr op s v p hv hp hc => execBarWindowAccess_closed hv hp hc
  · intro n tail s p hp
    exact ⟨execDoorbellTail_halted hp, execDoorbellTail_beyond hp, execDoorbellTail_admits hp⟩
  · intro n v s
    exact ⟨fun hv => if_pos hv, fun hv => if_neg (ne_true_of_eq_false hv)⟩
  · exact fun cid s hn => execHostRingSlot_asks hn
  · intro cid s p hn s1 hp
    refine ⟨fun he => execHostRingSlot_stays hn (takeRingSlot_empty hp he), fun ds hd => ⟨?_, ?_, ?_, ?_⟩⟩
    · intro s2 launch hg he
      exact execHostRingSlot_takes hn (by rw [takeRingSlot_good hp hd hg, he]; rfl)
    · intro hg he
      exact execHostRingSlot_stays hn (by rw [takeRingSlot_good hp hd hg, he]; rfl)
    · exact fun i hb hz => execHostRingSlot_takes hn (takeRingSlot_badSilent hp hd hb hz)
    · exact fun i s2 hb hz hs => execHostRingSlot_takes hn (takeRingSlot_badRecorded hp hd hb hz hs)

end Sys2Proof.Proofs.HostLinks
end

section
/-! PROOFS. The copy unit's and the domain's jobs (spec/16_matrix.md R258, R274 to R281; spec/08_order_engines.md R122, R125 to
R127): what a turn of a job gives, by the job's state, and what its acknowledgements, its participants and their timeout give. -/

namespace Sys2Proof.Proofs.CopyJobs
open Sys2Proof Sys2Proof.Machine Sys2Proof.Claims

variable {s s1 : State} {k id : Nat} {j : Job}

/-! ### A step of a running job -/

/-- A job stands under its own number. -/
theorem jobAt_id (hj : jobAt s k id = some j) : j.id = id := by simpa using List.find?_some hj

/-- A step that is made whole leaves what `stepMade` says. -/
theorem runJob_ok {act : EM Unit} (hj : jobAt s k id = some j) (ha : act s = .ok ((), s1)) :
    runJob s k id act = stepMade s1 k j := by
  obtain rfl := jobAt_id hj
  simp only [runJob, ha, hj]
  rfl

/-- An event that runs a job's step makes that step. -/
theorem makesStep_of_runJob {e : Instr} {act : EM Unit} (hj : jobAt s k id = some j) (he : Gives e s (runJob s k id act)) :
    MakesStep e s k id j act :=
  ⟨he, fun _ ha => runJob_ok hj ha ▸ he⟩

/-! ### Turns of the copy unit's jobs -/

section
variable {step : Job → EM Unit}

theorem copyTurn_taken (h : ItsTurn s k id j false) (hp : copyPlaces s k < 4) :
    copyTurn s k id step = wakeJob (take s k j .running) k id := by
  obtain ⟨hj, he, hq, hn⟩ := h
  simp [copyTurn, hj, he, hq, hn, hp]

theorem copyTurn_noPlace (h : ItsTurn s k id j false) (hp : 4 ≤ copyPlaces s k) : copyTurn s k id step = s := by
  obtain ⟨hj, he, hq, -⟩ := h
  simp [copyTurn, hj, he, hq, Nat.not_lt.2 hp]

theorem copyTurn_runs (h : Runs s k id j) : copyTurn s k id step = runJob s k id (step j) := by
  obtain ⟨hj, he, hr⟩ := h
  simp [copyTurn, hj, he, hr]

end

theorem copyGo_noDesc (hd : j.desc = []) : copyGo k id j = copyStart k id j := by simp only [copyGo, hd]

theorem copyGo_plan {w : Word} {ws : List Word} {p : Plan} (hd : j.desc = w :: ws) (hp : planOf (jobOpc j) (w :: ws) = some p) :
    copyGo k id j = copyStep k id j p := by simp only [copyGo, hd, hp]

/-- R258, R276: a copy with no unit left to write or to acknowledge, and no element that it cannot hold, ends OK. -/
theorem copyStep_ends {p : Plan} (hw : p.barges ≤ j.nextUnit / 65536) (hu : j.unacked = []) (hh : j.acked.length ≤ 16) :
    copyStep k id j p s = .ok ((), endJob s k id 0) := by
  simp only [copyStep, allWritten, hw, hu, hh, decide_true, List.isEmpty_nil, Bool.and_true, if_true]
  rfl

/-- An event whose meaning is a copy's turn gives what R258, R274 and R276 say of it. -/
theorem copyTurns_of_exec {e : Nat → Nat → Instr} (he : ∀ k id s, exec (e k id) s = .next (copyTurn s k id (copyGo k id))) :
    CopyTurns e := by
  have turn {k id : Nat} {s s' : State} (h : copyTurn s k id (copyGo k id) = s') : Gives (e k id) s s' :=
    (he k id s).trans (congrArg Host.Outcome.next h)
  refine ⟨fun k id s j h => ⟨fun hp => turn (copyTurn_taken h hp), fun hp => turn (copyTurn_noPlace h hp)⟩,
    fun k id s j h => ?_⟩
  have hrun := copyTurn_runs (step := copyGo k id) h
  obtain ⟨hj, -⟩ := h
  refine ⟨fun hd => ?_, fun w ws p hd hp => ?_⟩
  · rw [copyGo_noDesc hd] at hrun
    exact makesStep_of_runJob hj (turn hrun)
  · rw [copyGo_plan hd hp] at hrun
    have hstep := makesStep_of_runJob hj (turn hrun)
    exact ⟨hstep, fun hw hu hh => hstep.2 _ (copyStep_ends hw hu hh)⟩

/-! ### Turns of the domain's jobs -/

/-- R281: a domain job that is taken stops where another of its tag and set is out; else it goes on alone, or its participants are
awaited. -/
theorem domTurn_taken (h : ItsTurn s k id j false) (hp : copyPlaces s k < 4) :
    domTurn s k id =
      let s1 := take s k j .running
      if collides s1 k j then endJob s1 k id 2
      else if (List.range 64).all fun d => j.c3.getLsbD d == (d == s1.pkg.dev) then
        wakeJob (modJob s1 k id fun q => { q with peers := some [] }) k id
      else postTimer s1 (.collectiveTimeout k id) := by
  obtain ⟨hj, he, hq, hn⟩ := h
  simp only [domTurn, hj, he, hq, hn, hp, decide_true, BEq.rfl, Bool.and_self, Bool.false_eq_true, if_true, if_false]
  rfl

theorem domTurn_noPlace (h : ItsTurn s k id j false) (hp : 4 ≤ copyPlaces s k) : domTurn s k id = s := by
  obtain ⟨hj, he, hq, -⟩ := h
  simp [domTurn, hj, he, hq, Nat.not_lt.2 hp]

theorem domTurn_runs (h : Runs s k id j) : domTurn s k id = runJob s k id (domStep k id j) := by
  obtain ⟨hj, he, hr⟩ := h
  simp [domTurn, hj, he, hr]

/-- R280: a domain job whose participants have met, with no unit left to write or to acknowledge, ends OK. -/
theorem domStep_ends {ps : List Peer} (hm : j.peers = some ps) (hw : (domPlan j).barges ≤ j.nextUnit / 65536)
    (hu : j.unacked = []) : domStep k id j s = .ok ((), endJob s k id 0) := by
  simp only [domStep, hm, allWritten, hw, hu, decide_true, List.isEmpty_nil, if_true]
  rfl

/-- An event whose meaning is a domain job's turn gives what R280 and R281 say of it. -/
theorem domainTurns_of_exec {e : Nat → Nat → Instr} (he : ∀ k id s, exec (e k id) s = .next (domTurn s k id)) :
    DomainTurns e := by
  have turn {k id : Nat} {s s' : State} (h : domTurn s k id = s') : Gives (e k id) s s' :=
    (he k id s).trans (congrArg Host.Outcome.next h)
  refine ⟨fun k id s j h hp => ?_, fun k id s j h hp => turn (domTurn_noPlace h hp), fun k id s j h => ?_⟩
  · have ht := domTurn_taken h hp
    exact ⟨fun hc => turn (by rw [ht]; simp only [hc, if_true]),
      fun hc ha => turn (by rw [ht]; simp only [hc, ha, Bool.false_eq_true, if_true, if_false]),
      fun hc ha => turn (by rw [ht]; simp only [hc, ha, Bool.false_eq_true, if_false])⟩
  · have hstep := makesStep_of_runJob h.1 (turn (domTurn_runs h))
    exact ⟨hstep, fun ps hm hw hu => hstep.2 _ (domStep_ends hm hw hu)⟩

/-! ### Acknowledgements, participants and their timeout -/

/-- A job with what an acknowledgement says besides: whether poison was met, and whether a host-done is to come (R120, R391). -/
def ackNoted (poisoned hp : Bool) (q : Job) : Job := { q with psn := q.psn || poisoned, hp := if hp then q.hp + 1 else q.hp }

theorem execCopyWriteAck_acknowledged {src u : Nat} {hp : Bool} {red : Reduced} (hj : jobAt s k id = some j)
    (he : j.ended = false) :
    execCopyWriteAck ⟨src, k⟩ id u true hp red s =
      .next (wakeJob (modJob s k id fun q => ackUnit (ackNoted red.poisoned hp q) u red.sums) k id) := by
  simp [execCopyWriteAck, hj, he, ackNoted]

theorem execCopyWriteAck_refused {src u : Nat} {hp : Bool} {red : Reduced} (hj : jobAt s k id = some j) (hu : u < 2 ^ 40) :
    execCopyWriteAck ⟨src, k⟩ id u false hp red s =
      .next (finishJob (endJob (modJob s k id fun q => loseUnit (ackNoted red.poisoned hp q) u) k id 2) k id) := by
  simp only [execCopyWriteAck, hj, hu, ackNoted, Bool.false_eq_true, if_true, if_false]

/-- R281: a running collective that waits for its participants compares them once they are exactly its set's others. -/
theorem execCollectiveMatch_met {ps : List Peer} (h : Runs s k id j) (hd : jobUnit j = 2) (hw : j.peers = none)
    (hc : j.cutOff = false) (hall : whole j s.pkg.dev ps = true) :
    execCollectiveMatch k id ps s = if ps.all (agrees j) then
        .next (wakeJob (modJob s k id fun q => { q with peers := some ps }) k id)
      else .next (endJob (dropTimer s (.collectiveTimeout k id)) k id 2) := by
  obtain ⟨hj, he, hr⟩ := h
  simp [execCollectiveMatch, hj, he, hr, hd, hw, hc, hall]

theorem execCollectiveTimeout_runs (h : Runs s k id j) (hd : jobUnit j = 2) :
    execCollectiveTimeout k id s =
      let o := jobOp j 2
      let n := Nat.min (domCount j * domSize j) (o.base + o.limit - o.addr)
      .next (endJob ((List.range n).foldl (fun s i => wildByte s k o (k * 8 + j.core) (o.addr + i))
        (dropTimer s (.collectiveTimeout k id))) k id 4) := by
  obtain ⟨hj, he, hr⟩ := h
  have hj' : jobAt (dropTimer s (.collectiveTimeout k id)) k id = some j := hj
  simp [execCollectiveTimeout, hj', he, hr, hd, beforeStart]

/-! ### The statement -/

/-- Settles O54: every clause is a case of a job's turn, of an acknowledgement, or of a collective's meeting or timeout. -/
theorem copyJobEvents : Obligations.CopyJobEvents := by
  unfold Obligations.CopyJobEvents
  refine ⟨copyTurns_of_exec fun _ _ _ => rfl, copyTurns_of_exec fun _ _ _ => rfl, copyTurns_of_exec fun _ _ _ => rfl,
    copyTurns_of_exec fun _ _ _ => rfl, copyTurns_of_exec fun _ _ _ => rfl, domainTurns_of_exec fun _ _ _ => rfl,
    domainTurns_of_exec fun _ _ _ => rfl, ?_, ?_, ?_⟩
  · exact fun src k id u hp poisoned sums s j hj he =>
      ⟨execCopyWriteAck_acknowledged hj he, fun hu => execCopyWriteAck_refused hj hu⟩
  · intro k id ps s j h hd hw hc hall
    have hm := execCollectiveMatch_met h hd hw hc hall
    exact ⟨fun ha => hm.trans (if_pos ha), fun ha => hm.trans (if_neg (ne_true_of_eq_false ha))⟩
  · exact fun k id s j h hd => execCollectiveTimeout_runs h hd

end Sys2Proof.Proofs.CopyJobs
end

section
/-! PROOFS. Slots that are given (spec/22_scheduling.md R344, R347): what a grant comes to on a core without jobs or rows, and why
the statement about slots and waits fails. -/

namespace Sys2Proof.Proofs.SlotGrants
open Sys2Proof Sys2Proof.Machine Sys2Proof.Claims

/-- R344, R347: where no job and no row waits for a slot, a grant gives the slots; on a cluster that no flotilla holds, the
partition's launches are considered besides. -/
theorem exec_slotGrant_noJobs {s s1 : State} {c : Nat} (hs : giveSlots s c = s1) (hj : (cluster s1 (clusterOf c)).jobs = [])
    (hd : (Machine.core s1 c).drain = []) :
    exec (.slotGrant c) s = .next
      (if (cluster s1 (clusterOf c)).flotilla = 0 then post s1 (.launchPlacement (cidOf s1 c)) else s1) := by
  have hpost : postAll s1 [] = s1 := by simp [postAll]
  have hcore : Machine.core (if (cluster s1 (clusterOf c)).flotilla = 0 then post s1 (.launchPlacement (cidOf s1 c)) else s1) c
      = Machine.core s1 c := by split <;> rfl
  change execSlotGrant c s = _
  simp only [execSlotGrant, hs, hj, List.map_nil, List.foldl_nil, List.filter_nil, hpost, hcore, hd, List.any_nil, Bool.false_and,
    Bool.false_eq_true, if_false]

/-- Something more to come about makes another state. -/
theorem post_ne (s : State) (e : Event) : post s e ≠ s := fun h => by simpa using congrArg State.due h

/-- After reset nothing waits for a slot of core 0. -/
theorem giveSlots_reset : giveSlots State.reset 0 = State.reset := rfl

/-- Refutes O51: its clause on a grant leaves out that a grant on a cluster which no flotilla holds has the partition's launches
considered (R344). After reset a grant on core 0 gives no slot, and the launch placement of CID 0 is due, as the statement
does not say. -/
theorem not_slotAndWaitEvents : ¬ Obligations.SlotAndWaitEvents := by
  unfold Obligations.SlotAndWaitEvents
  rintro ⟨-, -, hgrant, -⟩
  have hgives : exec (.slotGrant 0) State.reset = .next (post State.reset (.launchPlacement 0)) :=
    exec_slotGrant_noJobs giveSlots_reset rfl rfl
  have hclaim : exec (.slotGrant 0) State.reset = .next State.reset := by
    have h := hgrant 0 State.reset
    rw [giveSlots_reset] at h
    exact h rfl rfl
  exact post_ne _ _ (Host.Outcome.next.inj (hgives.symm.trans hclaim))

end Sys2Proof.Proofs.SlotGrants
end

section
/-! PROOFS. The towline instructions (spec/09_towline.md R132 to R134, R144, R145, R147 to R151): what an operation answers when its
operands pass, by what its handle names and by what stands in the participants' ports. -/

namespace Sys2Proof.Proofs.Towlines
open Sys2Proof Sys2Proof.Machine Sys2Proof.Claims

variable {s s1 : State} {t : Thread} {d a b : Reg} {hd : Nat} {tow : Tow}

/-! ### Answers, gates and handles -/

/-- The end of an operation: its result is written and the thread goes on. -/
def answer (d : Reg) (v : Word) : Act Flow := do
  dst d v
  return .seq

/-- An instruction whose effect comes down to writing a result, in a state, answers it from that state. -/
theorem answers_of_issue {i : Instr} {act : Act Flow} {v : Word} (hi : Issues s t) (he : exec i s = issue act s)
    (ha : act s = answer d v s1) : Answers i s s1 d v := by
  intro s2 hw
  have hact : act s = .ok (.seq, s2) := by
    rw [ha, answer, Act.bind_ok hw, Act.pure_ok]
  obtain ⟨ht, hm⟩ := hi
  rw [he, issue_next ht hm hact]

/-- R48: a request waits for nothing where the core has none on its way. -/
theorem sendGate_ok {p : Nat → Bool} (h : requestsOut s (coreOf s.cur) p = false) : sendGate p s = .ok ((), s) := by
  simp only [sendGate, Act.bind_ok Act.get_ok, h]
  rfl

/-- R148: the statement's result word is the model's. -/
theorem towResult_eq (n hd : Nat) : towResult n hd = towWord n hd := rfl

/-- A group of one register reads as the word that it holds (R156). -/
theorem group_one (r : Reg) (s : State) : group r 1 s = .ok ([argOf s r 0], s) := group_ok r 1

/-- R150: a well-formed operand word gives the handle that it holds. -/
theorem towHandle_ok (hc : Checked [.grp a 1, .dst d] s) (hh : HandleWord s a hd) : towHandle d a s = .ok (hd, s) := by
  obtain ⟨hz, rfl⟩ := hh
  rw [towHandle, Act.bind_ok hc, Act.bind_ok (group_one a s)]
  simp only [List.getD_cons_zero, hz]
  rfl

/-- R145: a dropped towline's descriptor is free. -/
theorem towDesc_dropTow (s : State) (hd : Nat) : towDesc (dropTow s hd) hd = none := by
  simp [towDesc, dropTow, die, modDie]

/-! ### TWREC -/

/-- R134, R149: the operands of a TWREC, and the block that they name, pass every check, with no request of the
core on its way. -/
structure TakesBlock (s : State) (d a b : Reg) (blk : List Word) (s1 : State) (rs : List (Nat × Nat)) : Prop where
  checked : Checked [.grp a 1, .grp b 1, .dst d] s
  request : ¬ (fld (argOf s a 0) 60 9 ≠ 0 ∨ bitOf (argOf s a 0) 8 = true ∧ fld (argOf s a 0) 7 0 ≠ 0)
  block : readBlock (fld (argOf s a 0) 63 61) (argOf s b 0) 21 s = .ok (blk, s1)
  header : ¬ (fld (blk.getD 0 0) 63 48 ≠ 0 ∨ fld (blk.getD 0 0) 31 4 ≠ 0 ∨
    fld (blk.getD 0 0) 3 0 = 0 ∨ 8 < fld (blk.getD 0 0) 3 0)
  members : badSet blk (flotillaClusters s1 (self s1)) = none
  ranges : blockRanges blk (fld (blk.getD 0 0) 3 0) s1 = .ok (rs, s1)
  sent : requestsOut s1 (coreOf s1.cur) (fun _ => true) = false

/-- The descriptor with which a towline of a block starts recording; an old towline keeps its step and its flotilla (R145, R149). -/
def recordingTow (s : State) (blk : List Word) (rs : List (Nat × Nat)) (old : Option Tow) : Tow :=
  { st := .recording, rp := false, part := false, dep := false, thr := fld (blk.getD 0 0) 47 32, step := (old.map Tow.step).getD 0,
    cid := cidOf s (coreOf s.cur), flotilla := (old.map Tow.flotilla).getD (self s).flotilla, clusters := blockClusters blk,
    ranges := rs, last := (0, 0, 0), cum := (0, 0, 0), sum := (0, 0, 0), pending := 0 }

theorem recording_recordingTow (s : State) (blk : List Word) (rs : List (Nat × Nat)) (old : Option Tow) :
    Recording s (recordingTow s blk rs old) blk rs := ⟨rfl, rfl, rfl, rfl, rfl, rfl, rfl, rfl⟩

/-- R148: a descriptor loaded under a handle where the participants' ports take it; else the ports' status over a name. -/
def loadOutcome (s : State) (tow : Tow) (hd name : Nat) : State × Word :=
  let st := portStatus s tow.clusters tow.ranges hd
  if st = 0 then (setTow (freeTowRecords s hd) hd tow, towWord 0 hd) else (s, towWord st name)

/-- R145, R148, R149: what recording a block leaves and answers, anew under the lowest free handle, or again under an old one; nothing
where it waits for the old towline's step. -/
def recordOutcome (s : State) (w : Word) (blk : List Word) (rs : List (Nat × Nat)) : Option (State × Word) :=
  if bitOf w 8 then
    match lowestFree (die s (dieOf (coreOf s.cur))).tows 64 with
    | none => some (s, towWord 1 0)
    | some i => some (loadOutcome s (recordingTow s blk rs none) (dieOf (coreOf s.cur) * 64 + i) 0)
  else
    match towFor s (cidOf s (coreOf s.cur)) (fld w 7 0) with
    | none => some (s, towWord 4 (fld w 7 0))
    | some old =>
      if old.pending ≠ 0 then none
      else some (loadOutcome s (recordingTow s blk rs (some old)) (fld w 7 0) (fld w 7 0))

section
variable {name i : Nat} {w : Word} {blk : List Word} {rs : List (Nat × Nat)} {old : Tow}

theorem loadOutcome_loads (h : portStatus s tow.clusters tow.ranges hd = 0) :
    loadOutcome s tow hd name = (setTow (freeTowRecords s hd) hd tow, towWord 0 hd) := if_pos h

theorem loadOutcome_refused (h : portStatus s tow.clusters tow.ranges hd ≠ 0) :
    loadOutcome s tow hd name = (s, towWord (portStatus s tow.clusters tow.ranges hd) name) := if_neg h

theorem recordOutcome_noHandle (hw : bitOf w 8 = true) (hf : lowestFree (die s (dieOf (coreOf s.cur))).tows 64 = none) :
    recordOutcome s w blk rs = some (s, towWord 1 0) := by simp only [recordOutcome, hw, hf, if_true]

theorem recordOutcome_new (hw : bitOf w 8 = true) (hf : lowestFree (die s (dieOf (coreOf s.cur))).tows 64 = some i) :
    recordOutcome s w blk rs = some (loadOutcome s (recordingTow s blk rs none) (dieOf (coreOf s.cur) * 64 + i) 0) := by
  simp only [recordOutcome, hw, hf, if_true]

theorem recordOutcome_unknown (hw : bitOf w 8 = false) (hn : towFor s (cidOf s (coreOf s.cur)) (fld w 7 0) = none) :
    recordOutcome s w blk rs = some (s, towWord 4 (fld w 7 0)) := by
  simp only [recordOutcome, hw, hn, Bool.false_eq_true, if_false]

theorem recordOutcome_anew (hw : bitOf w 8 = false) (ho : towFor s (cidOf s (coreOf s.cur)) (fld w 7 0) = some old)
    (hp : old.pending = 0) :
    recordOutcome s w blk rs = some (loadOutcome s (recordingTow s blk rs (some old)) (fld w 7 0) (fld w 7 0)) := by
  simp only [recordOutcome, hw, ho, hp, ne_eq, not_true_eq_false, Bool.false_eq_true, if_false]

/-- Recording anew that comes to something does not wait for a step of the old towline (R145). -/
theorem pending_of_recordOutcome {r : State × Word} (hw : bitOf w 8 = false)
    (ho : towFor s (cidOf s (coreOf s.cur)) (fld w 7 0) = some old) (hr : recordOutcome s w blk rs = some r) : old.pending = 0 := by
  by_cases hp : old.pending = 0
  · exact hp
  · simp only [recordOutcome, hw, ho, hp, ne_eq, not_false_eq_true, Bool.false_eq_true, if_true, if_false, reduceCtorEq] at hr

end

/-- A descriptor loaded, or refused, as the last part of TWREC writes it. -/
theorem load_answers (s : State) (d : Reg) (tow : Tow) (hd name : Nat) :
    (if portStatus s tow.clusters tow.ranges hd = 0 then do
        set (setTow (freeTowRecords s hd) hd tow)
        dst d (towWord 0 hd)
        return .seq
      else do
        dst d (towWord (portStatus s tow.clusters tow.ranges hd) name)
        return .seq : Act Flow) s = answer d (loadOutcome s tow hd name).2 (loadOutcome s tow hd name).1 := by
  by_cases h : portStatus s tow.clusters tow.ranges hd = 0
  · simp only [loadOutcome, h, if_true]
    rw [Act.bind_ok (Act.set_ok _)]
    rfl
  · simp only [loadOutcome, h, if_false]
    rfl

/-- The two forms of TWREC are one operation, which goes by the request word (R149). -/
theorem exec_twrecNew (d a b : Reg) (s : State) : exec (.twrecNew d a b) s = issue (twrec d a b) s := rfl
theorem exec_twrecRerecord (d a b : Reg) (s : State) : exec (.twrecRerecord d a b) s = issue (twrec d a b) s := rfl

/-- R149: a TWREC whose block passes answers what recording the block comes to. -/
theorem twrec_answers {blk : List Word} {rs : List (Nat × Nat)} {s2 : State} {v : Word} (h : TakesBlock s d a b blk s1 rs)
    (hr : recordOutcome s1 (argOf s a 0) blk rs = some (s2, v)) : twrec d a b s = answer d v s2 := by
  obtain ⟨hc, hw, hb, hh, hset, hrs, hsent⟩ := h
  rw [twrec, Act.bind_ok hc, Act.bind_ok (group_one a s), Act.bind_ok (group_one b s)]
  simp only [List.getD_cons_zero, hw, if_false, Act.bind_ok hb, hh, Act.bind_ok Act.get_ok, hset, Act.bind_ok hrs,
    Act.bind_ok (sendGate_ok hsent)]
  cases hnew : bitOf (argOf s a 0) 8 with
  | true =>
    simp only [if_true]
    cases hf : lowestFree (die s1 (dieOf (coreOf s1.cur))).tows 64 with
    | none =>
      obtain ⟨rfl, rfl⟩ : s1 = s2 ∧ towWord 1 0 = v := by simpa [recordOutcome_noHandle hnew hf] using hr
      rfl
    | some i =>
      rw [recordOutcome_new hnew hf, Option.some.injEq] at hr
      exact (load_answers s1 d (recordingTow s1 blk rs none) _ 0).trans (by rw [hr])
  | false =>
    simp only [Bool.false_eq_true, if_false]
    cases ht : towFor s1 (cidOf s1 (coreOf s1.cur)) (fld (argOf s a 0) 7 0) with
    | none =>
      obtain ⟨rfl, rfl⟩ : s1 = s2 ∧ towWord 4 (fld (argOf s a 0) 7 0) = v := by
        simpa [recordOutcome_unknown hnew ht] using hr
      rfl
    | some old =>
      have hp : old.pending = 0 := pending_of_recordOutcome hnew ht hr
      rw [recordOutcome_anew hnew ht hp, Option.some.injEq] at hr
      simp only [hp, ne_eq, not_true_eq_false, if_false]
      exact (load_answers s1 d (recordingTow s1 blk rs (some old)) _ _).trans (by rw [hr])

/-! ### TWEND and TWDROP -/

/-- R145: what TWEND leaves of a towline; an IDLE one stays as it is. -/
def endTow (s : State) (hd : Nat) (t : Tow) : State :=
  if t.st = .idle then s else setTow (freeTowRecords s hd) hd { t with st := .idle, rp := false }

theorem exec_twend (d a : Reg) (s : State) : exec (.twend d a) s = issue (towFree endTow d a) s := rfl
theorem exec_twdrop (d a : Reg) (s : State) : exec (.twdrop d a) s = issue (towFree (fun s hd _ => dropTow s hd) d a) s := rfl

section
variable (f : State → Nat → Tow → State)

/-- R150: status 4 where the handle names none of the partition's towlines. -/
theorem towFree_unknown (hh : towHandle d a s = .ok (hd, s)) (hn : towFor s (cidOf s (coreOf s.cur)) hd = none) :
    towFree f d a s = answer d (towWord 4 hd) s := by
  rw [towFree, Act.bind_ok hh, Act.bind_ok Act.get_ok, hn]
  rfl

/-- R150: status 0 once the towline that the handle names is freed. -/
theorem towFree_frees (hh : towHandle d a s = .ok (hd, s)) (ht : towFor s (cidOf s (coreOf s.cur)) hd = some tow)
    (hp : tow.pending = 0) (hs : requestsOut s (coreOf s.cur) (fun _ => true) = false) :
    towFree f d a s = answer d (towWord 0 hd) (f s hd tow) := by
  rw [towFree, Act.bind_ok hh, Act.bind_ok Act.get_ok, ht]
  simp only [hp, ne_eq, not_true_eq_false, if_false, Act.bind_ok (sendGate_ok hs), Act.bind_ok (Act.set_ok _)]
  rfl

end

/-! ### TWSTEP -/

section
variable (hi : Issues s t) (hh : towHandle d a s = .ok (hd, s)) (hr : release .th s = .ok ((), s))
include hi hh hr

theorem twstep_unknown (hn : towFor s (cidOf s (coreOf s.cur)) hd = none) : Answers (.twstep d a) s s d (towWord 4 hd) := by
  refine answers_of_issue hi rfl ?_
  rw [Act.bind_ok hh, Act.bind_ok hr, Act.bind_ok Act.get_ok, hn]
  rfl

/-- R150: an IDLE towline has no step to close. -/
theorem twstep_idle (ht : towFor s (cidOf s (coreOf s.cur)) hd = some tow) (hp : tow.pending = 0) (hst : tow.st = .idle) :
    Answers (.twstep d a) s s d (towWord 0 hd) := by
  refine answers_of_issue hi rfl ?_
  rw [Act.bind_ok hh, Act.bind_ok hr, Act.bind_ok Act.get_ok, ht]
  simp only [hp, hst, ne_eq, not_true_eq_false, if_false, if_true]
  rfl

/-- R144, R150: a step message goes to each of the 256 slices, and the thread waits until all have closed the step. -/
theorem twstep_closes (ht : towFor s (cidOf s (coreOf s.cur)) hd = some tow) (hp : tow.pending = 0) (hst : tow.st ≠ .idle) :
    let s1 := postAll (setTow s hd { tow with pending := 256, sum := (0, 0, 0) })
      ((List.range 256).map fun h => .stepMessage h hd (some s.cur))
    exec (.twstep d a) s = .next (finish (waitIn s1 s.cur (.towline d hd 256)) .stay) := by
  obtain ⟨hthr, hm⟩ := hi
  refine issue_next hthr hm ?_
  rw [Act.bind_ok hh, Act.bind_ok hr, Act.bind_ok Act.get_ok, ht]
  simp only [hp, hst, ne_eq, not_true_eq_false, if_false, Act.bind_ok (Act.set_ok _)]
  exact inside_ok _

end

/-! ### TWSTAT -/

/-- R151: what TWSTAT reads of what its handle names. -/
def statOf (s : State) (w : Word) : Word :=
  match towFor s (cidOf s (coreOf s.cur)) (fld w 7 0) with
  | none => towWord 4 (fld w 7 0)
  | some tow => towStatus tow (fld w 9 8)

theorem statOf_unknown {w : Word} (h : towFor s (cidOf s (coreOf s.cur)) (fld w 7 0) = none) :
    statOf s w = towWord 4 (fld w 7 0) := by simp only [statOf, h]

theorem statOf_known {w : Word} (h : towFor s (cidOf s (coreOf s.cur)) (fld w 7 0) = some tow) :
    statOf s w = towStatus tow (fld w 9 8) := by simp only [statOf, h]

theorem twstat_answers (hi : Issues s t) (hc : Checked [.grp a 1, .dst d] s) (hz : fld (argOf s a 0) 63 10 = 0)
    (hsel : fld (argOf s a 0) 9 8 ≠ 3) : Answers (.twstat d a) s s d (statOf s (argOf s a 0)) := by
  refine answers_of_issue hi rfl ?_
  rw [Act.bind_ok hc, Act.bind_ok (group_one a s)]
  simp only [List.getD_cons_zero, hz, hsel, ne_eq, not_true_eq_false, or_self, if_false, Act.bind_ok Act.get_ok, statOf]
  cases towFor s (cidOf s (coreOf s.cur)) (fld (argOf s a 0) 7 0) <;> rfl

/-! ### The statement -/

/-- Settles O32: each clause is a case of what recording a block comes to, of what the handle names, or of the towline's state. -/
theorem towlineInstructions : Obligations.TowlineInstructions := by
  unfold Obligations.TowlineInstructions
  simp only [towResult_eq]
  refine ⟨?_, ?_, ?_⟩
  · intro d a b s t blk s1 rs hi hc hz hb htop hmid hsome hfew hset hrs hsent
    have takes (hreq : bitOf (argOf s a 0) 8 = true → fld (argOf s a 0) 7 0 = 0) : TakesBlock s d a b blk s1 rs :=
      ⟨hc, by simpa [hz] using hreq, hb, by omega, hset, hrs, hsent⟩
    refine ⟨fun hnew h0 => ?_, fun hnew => ?_⟩
    · have answers {s2 v} (hr : recordOutcome s1 (argOf s a 0) blk rs = some (s2, v)) : Answers (.twrecNew d a b) s s2 d v :=
        answers_of_issue hi (exec_twrecNew d a b s) (twrec_answers (takes fun _ => h0) hr)
      refine ⟨fun i hf => ?_, fun hf => answers (recordOutcome_noHandle hnew hf)⟩
      have hload := recordOutcome_new (blk := blk) (rs := rs) hnew hf
      exact ⟨fun hp => ⟨_, recording_recordingTow s1 blk rs none, rfl, rfl,
          answers (hload.trans (congrArg some (loadOutcome_loads hp)))⟩,
        fun hp => answers (hload.trans (congrArg some (loadOutcome_refused hp)))⟩
    · have answers {s2 v} (hr : recordOutcome s1 (argOf s a 0) blk rs = some (s2, v)) : Answers (.twrecRerecord d a b) s s2 d v :=
        answers_of_issue hi (exec_twrecRerecord d a b s) (twrec_answers (takes fun h => by simp [hnew] at h) hr)
      refine ⟨fun hn => answers (recordOutcome_unknown hnew hn), fun old ho hp => ?_⟩
      have hload := recordOutcome_anew (blk := blk) (rs := rs) hnew ho hp
      exact ⟨fun hp => ⟨_, recording_recordingTow s1 blk rs (some old), rfl, rfl,
          answers (hload.trans (congrArg some (loadOutcome_loads hp)))⟩,
        fun hp => answers (hload.trans (congrArg some (loadOutcome_refused hp)))⟩
  · intro d a s t hd hi hc hw
    have hh := towHandle_ok hc hw
    refine ⟨fun hn => ⟨answers_of_issue hi (exec_twend d a s) (towFree_unknown _ hh hn),
      answers_of_issue hi (exec_twdrop d a s) (towFree_unknown _ hh hn),
      fun hr => twstep_unknown hi hh hr hn⟩, fun tow ht hp hs => ?_⟩
    exact ⟨answers_of_issue hi (exec_twend d a s) (towFree_frees _ hh ht hp hs),
      answers_of_issue hi (exec_twdrop d a s) (towFree_frees _ hh ht hp hs),
      towDesc_dropTow s hd, fun hr => twstep_idle hi hh hr ht hp, fun hr => twstep_closes hi hh hr ht hp⟩
  · intro d a s t hi hc hz
    refine ⟨fun hn hsel => statOf_unknown hn ▸ twstat_answers hi hc hz hsel, fun tow ht => ?_⟩
    have reads (sel : Nat) (h3 : sel ≠ 3) (hs : fld (argOf s a 0) 9 8 = sel) : Answers (.twstat d a) s s d (towStatus tow sel) := by
      subst hs
      exact statOf_known ht ▸ twstat_answers hi hc hz h3
    exact ⟨reads 0 (by decide), reads 1 (by decide), reads 2 (by decide)⟩

end Sys2Proof.Proofs.Towlines
end

section
/-! PROOFS. Reductions and scans (spec/15_isa_vector.md R182, R248): the tree that the model folds level by level is the tree of the
rule, and the prefixes that it carries along the lanes are the folds of the active lanes up to each. -/

namespace Sys2Proof.Proofs.Reductions
open Sys2Proof Sys2Proof.Machine Sys2Proof.Claims

/-! ### The fixed tree -/

section
variable (f : Lane → Lane → Lane) (n : Nat → Option Lane)

/-- The nodes one level above the nodes n. -/
def parents (k : Nat) : Option Lane := joined f (n (2 * k)) (n (2 * k + 1))

theorem treeRoot_eq_parents : treeRoot f n = parents f (parents f (parents f (parents f n))) 0 := rfl

theorem level_cons_cons (x y : Option Lane) (rest : List (Option Lane)) :
    level f (x :: y :: rest) = joined f x y :: level f rest := by
  cases x <;> cases y <;> rfl

/-- The model's step from a level of 2k nodes gives their k parents. -/
theorem level_range (k : Nat) : level f ((List.range (2 * k)).map n) = (List.range k).map (parents f n) := by
  induction k generalizing n with
  | zero => rfl
  | succ k ih =>
    have hrest := ih fun l => n (l + 2)
    simp only [Nat.mul_succ, List.range_succ_eq_map, List.map_cons, List.map_map, level_cons_cons] at hrest ⊢
    exact congrArg _ hrest

theorem treeReduce_range (unit : Lane) : treeReduce f unit ((List.range 16).map n) = (treeRoot f n).getD unit := by
  rw [treeReduce, level_range f n 8, level_range f _ 4, level_range f _ 2, level_range f _ 1, treeRoot_eq_parents, List.range_one,
    List.map_singleton]
  cases parents f (parents f (parents f (parents f n))) 0 <;> rfl

end

/-! ### Prefixes in lane order -/

section
variable (f : Lane → Lane → Lane) (g : Nat → Lane)

/-- The values of those of the lanes ls that do not come after lane l. -/
def upTo (ls : List Nat) (l : Nat) : List Lane := (ls.filter (· ≤ l)).map g

theorem upTo_cons {k l : Nat} {ls : List Nat} (h : k ≤ l) : upTo g (k :: ls) l = g k :: upTo g ls l := by simp [upTo, h]

/-- Where l comes before all the lanes, none is among those up to it. -/
theorem upTo_below {ls : List Nat} {l : Nat} (h : ∀ m ∈ ls, l < m) : upTo g ls l = [] := by simpa [upTo] using h

theorem prefixes_some {ls : List Nat} (acc : Lane) (h : ls.Pairwise (· < ·)) :
    prefixes f (some acc) (ls.map fun l => (l, g l)) = ls.map fun l => (l, (upTo g ls l).foldl f acc) := by
  induction ls generalizing acc with
  | nil => rfl
  | cons k ls ih =>
    obtain ⟨hk, hls⟩ := List.pairwise_cons.mp h
    have hhead : (upTo g (k :: ls) k).foldl f acc = f acc (g k) := by rw [upTo_cons g (Nat.le_refl k), upTo_below g hk]; rfl
    have htail : ∀ l ∈ ls, (l, (upTo g ls l).foldl f (f acc (g k))) = (l, (upTo g (k :: ls) l).foldl f acc) := fun l hl => by
      rw [upTo_cons g (Nat.le_of_lt (hk l hl)), List.foldl_cons]
    rw [List.map_cons, List.map_cons, prefixes, ih _ hls, hhead, List.map_congr_left htail]

theorem prefixes_none {ls : List Nat} (h : ls.Pairwise (· < ·)) : prefixes f none (ls.map fun l => (l, g l)) =
    ls.map fun l => (l, (upTo g ls l).tail.foldl f ((upTo g ls l).headD 0)) := by
  cases ls with
  | nil => rfl
  | cons k ls =>
    obtain ⟨hk, hls⟩ := List.pairwise_cons.mp h
    have hhead : upTo g (k :: ls) k = [g k] := by rw [upTo_cons g (Nat.le_refl k), upTo_below g hk]
    have htail : ∀ l ∈ ls, (l, (upTo g ls l).foldl f (g k)) =
        (l, (upTo g (k :: ls) l).tail.foldl f ((upTo g (k :: ls) l).headD 0)) := fun l hl => by
      rw [upTo_cons g (Nat.le_of_lt (hk l hl)), List.tail_cons, List.headD_cons]
    rw [List.map_cons, List.map_cons, prefixes, prefixes_some f g _ hls, hhead, List.map_congr_left htail]
    rfl

end

/-! ### Lanes that the instructions read -/

theorem active_eq_activeLanes (t : Thread) (p : Bool) : active t p = activeLanes t p := by cases p <;> rfl

theorem activeLanes_pairwise (t : Thread) (p : Bool) : (activeLanes t p).Pairwise (· < ·) := List.pairwise_lt_range.filter _

theorem mem_activeLanes_lt {t : Thread} {p : Bool} {l : Nat} (h : l ∈ activeLanes t p) : l < 16 :=
  List.mem_range.mp (List.mem_filter.mp h).1

theorem vreg_ok (v : Reg) (s : State) : vreg v s = .ok ((List.range 16).map (laneAt s (coreOf s.cur) (self s) v), s) := rfl

theorem lateResult_ok (reg : Option (Nat × Word)) (vec : Option (Nat × List (Nat × Lane))) (s : State) :
    lateResult reg vec s = .ok ((), resultLater s reg vec) := rfl

/-! ### The instructions -/

/-- R248: an instruction that folds the tree of its active lanes reduces them. -/
theorem reduces_of_exec {i : Reg → Reg → Bool → Instr} {f : Rm → Lane → Lane → Lane} {unit : Lane} {ext : Lane → Word}
    (he : ∀ d a p s, exec (i d a p) s = issue (reduce f unit ext d a p) s) : Reduces i f unit ext := by
  intro d a p s t ⟨ht, hm⟩ hc n0 v
  have hleaves : ((List.range 16).map fun l => if (activeLanes t p).contains l then
      ((List.range 16).map (laneAt s (coreOf s.cur) t a))[l]? else none) = (List.range 16).map n0 := by
    refine List.map_congr_left fun l hl => ?_
    rw [List.getElem?_map, List.getElem?_range (List.mem_range.mp hl)]
    rfl
  have hrun : reduce f unit ext d a p s =
      (if d.toNat < 112 then lateResult (some (d.toNat, ext v)) none >>= fun _ => pure .seq else pure .seq : Act Flow) s := by
    rw [reduce, Act.bind_ok hc, Act.bind_ok (vreg_ok a s), Act.bind_ok me_ok, self_of ht]
    simp only [active_eq_activeLanes, hleaves, treeReduce_range]
    rfl
  refine ⟨fun hd => ?_, fun hd => ?_⟩
  · rw [if_pos hd, Act.bind_ok (lateResult_ok _ _ s), Act.pure_ok] at hrun
    rw [he, issue_next ht hm hrun]
  · rw [if_neg (by simp [hd]), Act.pure_ok] at hrun
    rw [he, issue_next ht hm hrun]

/-- R248: an instruction that carries the prefixes of its active lanes scans them. -/
theorem scans_of_exec {i : Reg → Reg → Bool → Instr} {f : Rm → Lane → Lane → Lane}
    (he : ∀ d a p s, exec (i d a p) s = issue (vscan f d a p) s) : Scans i f := by
  intro d a p s t ⟨ht, hm⟩ hc ups
  have hlanes : ((activeLanes t p).map fun l => (l, ((List.range 16).map (laneAt s (coreOf s.cur) t a)).getD l 0)) =
      (activeLanes t p).map fun l => (l, laneAt s (coreOf s.cur) t a l) := by
    refine List.map_congr_left fun l hl => ?_
    rw [List.getD_eq_getElem?_getD, List.getElem?_map, List.getElem?_range (mem_activeLanes_lt hl)]
    rfl
  rw [he, issue_next ht hm]
  rw [vscan, Act.bind_ok hc, Act.bind_ok (vreg_ok a s), Act.bind_ok me_ok, self_of ht, active_eq_activeLanes, hlanes,
    prefixes_none _ _ (activeLanes_pairwise t p), deliverV, if_pos rfl, Act.bind_ok (lateResult_ok _ _ s), Act.pure_ok]
  rfl

/-- The model keeps the second of two equal fields, the statement the first. -/
theorem maxS_eq_ite_lt (x y : Lane) : maxS x y = if x.toInt < y.toInt then y else x := by
  rcases Int.lt_trichotomy x.toInt y.toInt with h | h | h
  · rw [maxS, if_pos (Int.le_of_lt h), if_pos h]
  · rw [maxS, BitVec.eq_of_toInt_eq h, ite_self, ite_self]
  · rw [maxS, if_neg (Int.not_le.mpr h), if_neg (Int.not_lt.mpr (Int.le_of_lt h))]

/-- Settles O25: each instruction folds the tree, or carries the prefixes, with the operation that the statement gives. -/
theorem vectorReductionsAndScans : Obligations.VectorReductionsAndScans := by
  unfold Obligations.VectorReductionsAndScans
  simp only [← maxS_eq_ite_lt]
  exact ⟨reduces_of_exec fun _ _ _ _ => rfl, reduces_of_exec fun _ _ _ _ => rfl, reduces_of_exec fun _ _ _ _ => rfl,
    reduces_of_exec fun _ _ _ _ => rfl, scans_of_exec fun _ _ _ _ => rfl, scans_of_exec fun _ _ _ _ => rfl⟩

end Sys2Proof.Proofs.Reductions
end

section
/-! PROOFS. Binding streams (spec/13_isa_memory.md R217 to R219; R185): what binding a free register leaves, which request words
are refused, and which jobs an arrival stream may be bound to. -/

namespace Sys2Proof.Proofs.StreamBindings
open Sys2Proof Sys2Proof.Machine Sys2Proof.Claims

variable {s s1 s2 : State} {t : Thread} {d a b : Reg} {w : Word}

/-- An instruction whose effect traps does so exactly. -/
theorem trapsExactly_of_issue {i : Instr} {act : Act Flow} {code : Nat} {v : Word} (hi : Issues s t) (he : exec i s = issue act s)
    (ha : act s = .error (.trap code v 0)) : TrapsExactly i s code v := by
  obtain ⟨ht, hm⟩ := hi
  rw [TrapsExactly, he, issue_trap ht hm ha, self_of ht]

/-! ### Binding a register -/

/-- The state in which a stream register of the issuing thread holds a stream. -/
def withStream (s : State) (d : Reg) (st : Stream) : State :=
  modSelf s fun t => { t with streams := put t.streams (d.toNat - 112) st }

/-- R185: nothing of an earlier stream stands in the way of binding a register. -/
def Rebindable (s : State) (d : Reg) : Prop :=
  ∀ o, find (self s).streams (d.toNat - 112) = some o → o.held = [] ∧ o.kind ≠ .arrival

theorem rebindable_of_unbound (h : find (self s).streams (d.toNat - 112) = none) : Rebindable s d := by simp [Rebindable, h]

theorem bindRegister_ok (h : Rebindable s d) (st : Stream) : bind_ d st s = .ok ((), withStream s d st) := by
  rw [bind_, Act.bind_ok Act.get_ok]
  cases ho : find (self s).streams (d.toNat - 112) with
  | none => rfl
  | some o =>
    obtain ⟨hheld, hkind⟩ := h o ho
    simp only [hheld, hkind, List.isEmpty_nil, Bool.not_true, Bool.false_eq_true, if_false]
    rfl

theorem bindCheck_ok {sg : Nat} {c : Cls} (off : Word) (h : addrTrap s (self s) sg c 0 0 1 = none) :
    bindCheck sg c off s = .ok ((), s) := by
  rw [bindCheck, Act.bind_ok Act.get_ok, h]
  rfl

/-! ### STRM and STRX (R217) -/

/-- R217, R219: STRM and STRX refuse the request words that are not well formed. -/
theorem notRefused_iff_streamWord :
    (badRequest w || decide ((BitVec.ofNat 24 (fld w 23 0)).toInt % elemSize (fld w 61 60) ≠ 0)) = false ↔ StreamWord w := by
  by_cases h : fld w 61 60 = 2 <;> simp [badRequest, StreamWord, elemSize, h, and_assoc]

/-- The stream that a request word describes, at an offset of a segment. -/
def requested (kind : StreamKind) (sg : BitVec 3) (off w : Word) : Stream :=
  { kind := kind, esz := fld w 61 60, sg := sg.toNat, cnt := fld w 47 24, stride := BitVec.ofNat 24 (fld w 23 0), job := 0,
    next := off, elems := [], held := [] }

section
variable {kind : StreamKind} {c : Cls} {sg : BitVec 3} {off : Word} (hc : Checked [.src a, .src b] s) (ha : Reads a s off s1)
  (hb : Reads b s1 w s2) (hseg : addrTrap s2 (self s2) sg.toNat c 0 0 1 = none)
include hc ha hb hseg

theorem bindStream_ok (hw : StreamWord w) (h : Rebindable s2 d) :
    bindStream kind c d a b sg s = .ok (.seq, withStream s2 d (requested kind sg off w)) := by
  have hr := notRefused_iff_streamWord.mpr hw
  rw [bindStream, Act.bind_ok hc, Act.bind_ok ha, Act.bind_ok hb, Act.bind_ok (bindCheck_ok off hseg)]
  simp only [hr, Bool.false_eq_true, if_false]
  rw [Act.bind_ok (bindRegister_ok h _)]
  rfl

theorem bindStream_refused (hw : ¬ StreamWord w) : bindStream kind c d a b sg s = .error (.trap 0x1D w 0) := by
  have hr := Bool.of_not_eq_false (mt notRefused_iff_streamWord.mp hw)
  rw [bindStream, Act.bind_ok hc, Act.bind_ok ha, Act.bind_ok hb, Act.bind_ok (bindCheck_ok off hseg)]
  simp only [hr, if_true]
  rw [Act.bind_error (trap_error _ w)]

end

theorem binds_of_exec {i : Reg → Reg → Reg → BitVec 3 → Instr} {kind : StreamKind} {c : Cls}
    (he : ∀ d a b sg s, exec (i d a b sg) s = issue (bindStream kind c d a b sg) s) : Binds i kind c := by
  intro d a b sg s t off w s1 s2 hi hc ha hb hseg
  refine ⟨fun hw hfree => ?_, fun hw => ?_⟩
  · obtain ⟨ht, hm⟩ := hi
    exact (he ..).trans (issue_next ht hm (bindStream_ok hc ha hb hseg hw hfree))
  · exact trapsExactly_of_issue hi (he ..) (bindStream_refused hc ha hb hseg hw)

/-! ### STRQ (R218) -/

/-- R219: a request word that is well formed for an arrival stream. -/
def ArrivalWord (w : Word) : Prop :=
  fld w 63 62 = 0 ∧ fld w 59 48 = 0 ∧ fld w 61 60 ≠ 3 ∧ fld w 47 24 ≠ 0 ∧ fld w 23 16 = 0

/-- R218, R219: STRQ refuses the request words that are not well formed, whatever job they name. -/
theorem notRefused_iff_arrivalWord : (badRequest w || fld w 23 16 != 0) = false ↔ ArrivalWord w := by
  simp [badRequest, ArrivalWord, and_assoc]

/-- R218: a copy job with an arrival stream, not bound yet, whose destination's elements are of the size of the request. -/
def Fits (s : State) (c : Nat) (w : Word) (j : Job) : Prop :=
  jobUnit j = 1 ∧ bitOf j.c0 10 = true ∧ j.bound = false ∧
    destSize s (clusterOf c) j = some (if fld w 61 60 = 2 then 8 else 4)

theorem bindable_eq_some_iff {c : Nat} {j : Job} :
    bindable s c (fld w 15 0) (fld w 61 60) = some j ↔ knownJob s c (fld w 15 0) = some j ∧ Fits s c w j := by
  simp [bindable, Option.filter_eq_some_iff, Fits, elemSize, and_assoc]

/-- The arrival stream that a request word describes, of a job that has delivered some of its elements. -/
def arrivalOf (w : Word) (j : Job) : Stream :=
  { kind := .arrival, esz := fld w 61 60, sg := 0, cnt := fld w 47 24, stride := 0, job := fld w 15 0,
    next := BitVec.ofNat 64 j.delivered, elems := [], held := [] }

/-- R218: the job that a request word names has its arrival stream bound. -/
def jobBound (s : State) (k : Nat) (w : Word) : State :=
  endArrivals (modJob s k (fld w 15 0) fun j => { j with bound := true }) k (fld w 15 0)

section
variable (hi : Issues s t) (hc : Checked [.src b] s) (hb : Reads b s w s1)
include hi hc hb

theorem strq_binds {j : Job} (hw : ArrivalWord w) (hk : knownJob s1 (coreOf s1.cur) (fld w 15 0) = some j)
    (hf : Fits s1 (coreOf s1.cur) w j) (hu : find (self s1).streams (d.toNat - 112) = none) : exec (.strq d b) s =
      .next (finish (jobBound (withStream s1 d (arrivalOf w j)) (clusterOf (coreOf s1.cur)) w) .seq) := by
  obtain ⟨ht, hm⟩ := hi
  have hr := notRefused_iff_arrivalWord.mpr hw
  have hj := bindable_eq_some_iff.mpr ⟨hk, hf⟩
  refine issue_next ht hm ?_
  rw [Act.bind_ok hc, Act.bind_ok hb, Act.bind_ok Act.get_ok]
  simp only [hr, Bool.false_eq_true, if_false, hj]
  rw [Act.bind_ok (bindRegister_ok (rebindable_of_unbound hu) _)]
  rfl

/-- R219: a request traps that is not well formed, or that names no job which it fits. -/
theorem strq_traps (h : ArrivalWord w → bindable s1 (coreOf s1.cur) (fld w 15 0) (fld w 61 60) = none) :
    TrapsExactly (.strq d b) s 0x1D w := by
  refine trapsExactly_of_issue hi rfl ?_
  rw [Act.bind_ok hc, Act.bind_ok hb, Act.bind_ok Act.get_ok]
  cases hr : badRequest w || fld w 23 16 != 0 with
  | true =>
    simp only [if_true]
    rw [Act.bind_error (trap_error _ w)]
  | false =>
    simp only [Bool.false_eq_true, if_false, h (notRefused_iff_arrivalWord.mp hr)]
    rw [Act.bind_error (trap_error _ w)]

end

/-! ### The statement -/

/-- Settles O29: a request that passes binds the register, and every other one traps with its word. -/
theorem streamBindings : Obligations.StreamBindings := by
  unfold Obligations.StreamBindings
  refine ⟨binds_of_exec fun _ _ _ _ _ => rfl, binds_of_exec fun _ _ _ _ _ => rfl, ?_⟩
  intro d b s t w s1 hi hc hb c fits well
  refine ⟨fun j hw hk hf hu => strq_binds hi hc hb hw hk hf hu, fun h => strq_traps hi hc hb fun hw => ?_⟩
  rw [Option.eq_none_iff_forall_ne_some]
  intro j hj
  obtain ⟨hk, hf⟩ := bindable_eq_some_iff.mp hj
  exact h.elim (· hw) (· j hk hf)

end Sys2Proof.Proofs.StreamBindings
end

section
/-! PROOFS. The scalar instructions (spec/12_isa_scalar.md R189 to R203): the integer operations bit by bit, the four shapes that
the instructions have, and why the statement about their frame fails. -/

namespace Sys2Proof.Proofs.Scalars
open Sys2Proof Sys2Proof.Machine Sys2Proof.Claims

variable {s c x y v r : Word} {p n k : Nat}

/-! ### Comparisons, shift amounts, products and quotients (R190, R191) -/

theorem truth_eq_bit {b : Bool} {q : Prop} [Decidable q] (h : b = true ↔ q) : truth b = bit q := by
  simp only [truth, bit, h]

/-- The smaller of two words, the first of two equal ones. -/
theorem min_eq_ite_lt {le lt : Prop} [Decidable le] [Decidable lt] (h : ¬ lt ↔ le) (x y : Word) :
    (if le then x else y) = if lt then y else x := by
  simp only [← h, ite_not]

/-- The larger of two words, either of two equal ones. -/
theorem max_eq_ite_lt {le lt : Prop} [Decidable le] [Decidable lt] (h : le ↔ lt ∨ x = y) :
    (if le then y else x) = if lt then y else x := by
  by_cases hlt : lt
  · rw [if_pos (h.mpr (.inl hlt)), if_pos hlt]
  · by_cases hxy : x = y
    · rw [hxy, ite_self, ite_self]
    · rw [if_neg (mt h.mp (not_or.mpr ⟨hlt, hxy⟩)), if_neg hlt]

theorem toInt_le_iff (x y : Word) : x.toInt ≤ y.toInt ↔ x.toInt < y.toInt ∨ x = y := by
  rw [Int.le_iff_lt_or_eq, BitVec.toInt_inj]

theorem toNat_le_iff (x y : Word) : x.toNat ≤ y.toNat ↔ x.toNat < y.toNat ∨ x = y := by
  rw [Nat.le_iff_lt_or_eq, BitVec.toNat_inj]

theorem amount_eq_toNat_and (y : Word) : amount y = (y &&& 63).toNat := by
  rw [BitVec.toNat_and]
  exact (Nat.and_two_pow_sub_one_eq_mod y.toNat 6).symm

theorem wordInt_mulHigh_toNat (x y : Word) :
    wordInt (mulHigh x.toNat y.toNat 64) = BitVec.ofNat 64 (x.toNat * y.toNat / 2 ^ 64) := by
  rw [wordInt, mulHigh, ← BitVec.ofInt_natCast, Int.natCast_ediv, Int.natCast_mul]
  rfl

theorem divS_eq_sdiv (x y : Word) : divS x y = if y = 0 then BitVec.allOnes 64 else x.sdiv y := by
  rw [divS]
  congr 1
  exact BitVec.eq_of_toInt_eq (by rw [wordInt, BitVec.toInt_ofInt, BitVec.toInt_sdiv])

theorem divU_eq_udiv (x y : Word) : divU x y = if y = 0 then BitVec.allOnes 64 else x / y := by
  rw [divU, word, ← BitVec.udiv_def]

theorem remS_eq_srem (x y : Word) : remS x y = if y = 0 then x else x.srem y := by
  rw [remS, wordInt, ← BitVec.toInt_srem, BitVec.ofInt_toInt]

theorem remU_eq_umod (x y : Word) : remU x y = if y = 0 then x else x % y := by
  rw [remU, word, ← BitVec.toNat_umod, BitVec.ofNat_toNat, BitVec.setWidth_eq]

/-! ### Counts of bits (R192) -/

theorem clzFrom_zero (n : Nat) : clzFrom 0 n = n := by
  induction n with
  | zero => rfl
  | succ n ih => rw [clzFrom, ih, if_neg (by simp), Nat.add_comm]

/-- n zero bits above a set bit k are n leading zeros of the low k + 1 + n bits. -/
theorem clzFrom_of_highest (hset : s.getLsbD k = true) (n : Nat) (hclear : ∀ j, k < j → j ≤ k + n → s.getLsbD j = false) :
    clzFrom s (k + 1 + n) = n := by
  induction n with
  | zero => simp [clzFrom, hset]
  | succ n ih =>
    have htop : s.getLsbD (k + 1 + n) = false := hclear _ (by omega) (by omega)
    rw [← Nat.add_assoc, clzFrom, htop, ih fun j hj hn => hclear j hj (by omega)]
    exact Nat.add_comm 1 n

theorem ctzFrom_zero (n k : Nat) : ctzFrom 0 n k = n := by
  induction n generalizing k with
  | zero => rfl
  | succ n ih => rw [ctzFrom, ih, if_neg (by simp), Nat.add_comm]

/-- n zero bits from bit k up, below a set bit. -/
theorem ctzFrom_of_lowest (m : Nat) (hset : s.getLsbD (k + n) = true) (hclear : ∀ j < n, s.getLsbD (k + j) = false) :
    ctzFrom s (n + 1 + m) k = n := by
  induction n generalizing k with
  | zero => rw [Nat.zero_add, Nat.add_comm, ctzFrom, if_pos (by simpa using hset)]
  | succ n ih =>
    have hlow : s.getLsbD k = false := by simpa using hclear 0 (by omega)
    have hrest : ctzFrom s (n + 1 + m) (k + 1) = n :=
      ih (by simpa [Nat.add_assoc, Nat.add_comm 1] using hset) fun j hj => by
        simpa [Nat.add_assoc, Nat.add_comm 1] using hclear (j + 1) (by omega)
    rw [Nat.add_right_comm, ctzFrom, hlow, hrest]
    exact Nat.add_comm 1 n

theorem popcFrom_eq_countP (s : Word) (n : Nat) : popcFrom s n = (List.range n).countP s.getLsbD := by
  induction n with
  | zero => rfl
  | succ n ih =>
    rw [popcFrom, ih, List.range_succ, List.countP_append, List.countP_singleton, Nat.add_comm, Bool.toNat, Bool.cond_eq_ite]

/-! ### Reversals (R192) -/

/-- The reversed low n bits of a word stand above 64 - n zeros. -/
theorem brevFrom_eq_shifted (s : Word) (hn : n ≤ 64) :
    ∃ q, brevFrom s n = 2 ^ (64 - n) * q ∧ ∀ k < n, q.testBit k = s.getLsbD (n - 1 - k) := by
  induction n with
  | zero => exact ⟨0, rfl, by simp⟩
  | succ n ih =>
    obtain ⟨q, hq, hbits⟩ := ih (by omega)
    have hhalf : (2 * q + (s.getLsbD n).toNat) / 2 = q := by have := Bool.toNat_lt (s.getLsbD n); omega
    refine ⟨2 * q + (s.getLsbD n).toNat, ?_, fun k hk => ?_⟩
    · rw [brevFrom, hq, show 64 - n = 63 - n + 1 by omega, show 64 - (n + 1) = 63 - n by omega, Nat.pow_succ]
      grind
    · cases k with
      | zero => cases h : s.getLsbD n <;> simp [Nat.testBit_zero, h]
      | succ k => rw [Nat.testBit_succ, hhalf, hbits k (by omega), show n + 1 - 1 - (k + 1) = n - 1 - k by omega]

theorem getLsbD_brev (s : Word) (hk : k < 64) : (word (brevFrom s 64)).getLsbD k = s.getLsbD (63 - k) := by
  obtain ⟨q, hq, hbits⟩ := brevFrom_eq_shifted s (Nat.le_refl 64)
  rw [word, BitVec.getLsbD_ofNat, hq, Nat.sub_self, Nat.pow_zero, Nat.one_mul, hbits k hk]
  simp [hk]

/-- A word is its eight bytes, the highest first. -/
theorem eq_append_bytes (v : Word) :
    v = v.extractLsb' 56 8 ++ v.extractLsb' 48 8 ++ v.extractLsb' 40 8 ++ v.extractLsb' 32 8 ++ v.extractLsb' 24 8 ++
      v.extractLsb' 16 8 ++ v.extractLsb' 8 8 ++ v.extractLsb' 0 8 := by
  repeat rw [BitVec.extractLsb'_append_extractLsb'_eq_extractLsb' (by decide)]
  exact BitVec.extractLsb'_eq_self.symm

theorem eq_bswap64 (h : ∀ k < 8, v.extractLsb' (8 * k) 8 = s.extractLsb' (8 * (7 - k)) 8) : v = bswap64 s := by
  rw [eq_append_bytes v, bswap64, h 7 (by omega), h 6 (by omega), h 5 (by omega), h 4 (by omega), h 3 (by omega), h 2 (by omega),
    h 1 (by omega), h 0 (by omega)]

/-! ### Fields of bits (R192, R196, R197) -/

/-- The bits of a word determine it. -/
theorem eq_of_inserted {r' : Word} (h : Inserted c v r p n) (h' : Inserted c v r' p n) : r = r' :=
  BitVec.eq_of_getLsbD_eq fun k hk => (h k hk).trans (h' k hk).symm

theorem insertField_inserted (c v : Word) (p n : Nat) : Inserted c v (insertField c v p n) p n := by
  intro k hk
  have hmask : ((2 ^ n - 1) * 2 ^ p).testBit k = decide (p ≤ k ∧ k < p + n) := by
    rw [Nat.testBit_mul_two_pow, Nat.testBit_two_pow_sub_one, ← Bool.decide_and]
    exact decide_eq_decide.mpr (by omega)
  simp only [insertField, BitVec.getLsbD_or, BitVec.getLsbD_and, BitVec.getLsbD_not, BitVec.getLsbD_ofNat, BitVec.getLsbD_shiftLeft,
    hmask, hk]
  by_cases h : p ≤ k ∧ k < p + n
  · simp [h]
  · simp [h]

theorem getLsbD_bitField (s : Word) (p n k : Nat) :
    (bitField s p (n + 1)).getLsbD k = (decide (k < n + 1) && s.getLsbD (p + k)) := by
  have hk : s.getLsbD (p + k) = true → k < 64 := fun h => by have := BitVec.lt_of_getLsbD h; omega
  have hw : p + (n + 1) - 1 + 1 - p = n + 1 := by omega
  rw [bitField, fld, hw, BitVec.getLsbD_ofNat, Nat.testBit_mod_two_pow, Nat.testBit_shiftRight, BitVec.testBit_toNat]
  by_cases h : k < 64
  · simp [h]
  · simp [h, mt hk h]

theorem bitField_inserted (s : Word) (p n : Nat) : Inserted 0 (s >>> p) (bitField s p (n + 1)) 0 (n + 1) := by
  intro k hk
  simp [getLsbD_bitField]

theorem bitField_zero_eq_setWidth (s : Word) (n : Nat) : bitField s 0 (n + 1) = (s.setWidth (n + 1)).setWidth 64 := by
  refine BitVec.eq_of_getLsbD_eq fun k hk => ?_
  rw [getLsbD_bitField, Nat.zero_add, BitVec.getLsbD_setWidth, BitVec.getLsbD_setWidth, decide_eq_true hk, Bool.true_and]

theorem sextN_toNat (s : Word) (w : Nat) : sextN w s.toNat = (s.setWidth w).signExtend 64 := by
  rw [sextN, BitVec.ofNat_toNat]

/-! ### The shapes of the instructions -/

section
variable {s s1 s2 s3 : State} {d a b : Reg} {x y : Word} {f : Word → Word → Word}

theorem binary_ok (hc : Checked [.src a, .src b, .dst d] s) (ha : Reads a s x s1) (hb : Reads b s1 y s2)
    (hd : Writes d (f x y) s2 s3) : binary f d a b s = .ok (.seq, s3) := by
  rw [binary, Act.bind_ok hc, Act.bind_ok ha, Act.bind_ok hb, Act.bind_ok hd, Act.pure_ok]

theorem unary_ok {f : Word → Word} (hc : Checked [.src a, .dst d] s) (ha : Reads a s x s1) (hd : Writes d (f x) s1 s2) :
    unary f d a s = .ok (.seq, s2) := by
  rw [unary, Act.bind_ok hc, Act.bind_ok ha, Act.bind_ok hd, Act.pure_ok]

theorem division_later (hc : Checked [.src a, .src b, .dst d] s) (ha : Reads a s x s1) (hb : Reads b s1 y s2)
    (hd : d.toNat < 112) : division f d a b s = .ok (.seq, onItsWay s2 d.toNat (f x y)) := by
  rw [division, Act.bind_ok hc, Act.bind_ok ha, Act.bind_ok hb, if_pos hd]
  rfl

theorem division_dropped (hc : Checked [.src a, .src b, .dst 127] s) (ha : Reads a s x s1) (hb : Reads b s1 y s2) :
    division f 127 a b s = .ok (.seq, s2) := by
  rw [division, Act.bind_ok hc, Act.bind_ok ha, Act.bind_ok hb]
  rfl

theorem branch_ok {test : Word → Word → Bool} (o : BitVec 12) (hc : Checked [.src a, .src b] s) (ha : Reads a s x s1)
    (hb : Reads b s1 y s2) : branch test a b o s = .ok (if test x y then .goto (branchTo (self s).pc o) else .seq, s2) := by
  rw [branch, Act.bind_ok hc, Act.bind_ok me_ok, Act.bind_ok ha, Act.bind_ok hb, Act.pure_ok]

end

theorem two_of_exec {i : Reg → Reg → Reg → Instr} {f g : Word → Word → Word}
    (he : ∀ d a b s, exec (i d a b) s = issue (binary f d a b) s) (hf : ∀ x y, f x y = g x y) : Two i g := by
  intro d a b s t x y s1 s2 s3 ⟨ht, hm⟩ hc ha hb hd
  rw [← hf] at hd
  exact (he ..).trans (issue_next ht hm (binary_ok hc ha hb hd))

/-- The relation of the statement fixes the result. -/
theorem one_of_exec {i : Reg → Reg → Instr} {f : Word → Word} {R : Word → Word → Prop}
    (he : ∀ d a s, exec (i d a) s = issue (unary f d a) s) (hf : ∀ x v, R x v → v = f x) : One i R := by
  intro d a s t x v s1 s2 ⟨ht, hm⟩ hc ha hR hd
  rw [hf x v hR] at hd
  exact (he ..).trans (issue_next ht hm (unary_ok hc ha hd))

theorem later_of_exec {i : Reg → Reg → Reg → Instr} {f g : Word → Word → Word}
    (he : ∀ d a b s, exec (i d a b) s = issue (division f d a b) s) (hf : ∀ x y, f x y = g x y) : Later i g := by
  intro d a b s t x y s1 s2 ⟨ht, hm⟩ hc ha hb
  refine ⟨fun hd => ?_, fun hd => ?_⟩
  · rw [← hf]
    exact (he ..).trans (issue_next ht hm (division_later hc ha hb hd))
  · subst hd
    exact (he ..).trans (issue_next ht hm (division_dropped hc ha hb))

theorem tests_of_exec {i : Reg → Reg → BitVec 12 → Instr} {test : Word → Word → Bool} {p : Word → Word → Prop}
    (he : ∀ a b o s, exec (i a b o) s = issue (branch test a b o) s) (hp : ∀ x y, test x y = true ↔ p x y) : Tests i p := by
  intro a b o s t x y s1 s2 ⟨ht, hm⟩ hc ha hb
  have hrun := (he a b o s).trans (issue_next ht hm (branch_ok o hc ha hb))
  rw [self_of ht] at hrun
  refine ⟨fun h => ?_, fun h => ?_⟩
  · rw [hrun, if_pos ((hp x y).mpr h), branchTo]
  · rw [hrun, if_neg (mt (hp x y).mp h)]

/-! ### Two-source instructions and divisions -/

/-- Settles O8: each instruction's operation is the function that the statement gives. -/
theorem twoSourceResults : Obligations.TwoSourceResults := by
  unfold Obligations.TwoSourceResults
  exact ⟨two_of_exec (fun _ _ _ _ => rfl) fun _ _ => rfl, two_of_exec (fun _ _ _ _ => rfl) fun _ _ => rfl,
    two_of_exec (fun _ _ _ _ => rfl) fun _ _ => rfl, two_of_exec (fun _ _ _ _ => rfl) fun _ _ => rfl,
    two_of_exec (fun _ _ _ _ => rfl) wordInt_mulHigh_toNat, two_of_exec (fun _ _ _ _ => rfl) fun _ _ => rfl,
    two_of_exec (fun _ _ _ _ => rfl) fun _ _ => rfl, two_of_exec (fun _ _ _ _ => rfl) fun _ _ => rfl,
    two_of_exec (fun _ _ _ _ => rfl) fun _ _ => rfl, two_of_exec (fun _ _ _ _ => rfl) fun _ _ => rfl,
    two_of_exec (fun _ _ _ _ => rfl) fun _ _ => rfl, two_of_exec (fun _ _ _ _ => rfl) fun _ _ => rfl,
    two_of_exec (fun _ _ _ _ => rfl) fun x y => congrArg (x <<< ·) (amount_eq_toNat_and y),
    two_of_exec (fun _ _ _ _ => rfl) fun x y => congrArg (x >>> ·) (amount_eq_toNat_and y),
    two_of_exec (fun _ _ _ _ => rfl) fun x y => congrArg x.sshiftRight (amount_eq_toNat_and y),
    two_of_exec (fun _ _ _ _ => rfl) fun x y => congrArg x.rotateLeft (amount_eq_toNat_and y),
    two_of_exec (fun _ _ _ _ => rfl) fun x y => congrArg x.rotateRight (amount_eq_toNat_and y),
    two_of_exec (fun _ _ _ _ => rfl) fun x y => min_eq_ite_lt Int.not_lt x y,
    two_of_exec (fun _ _ _ _ => rfl) fun x y => max_eq_ite_lt (toInt_le_iff x y),
    two_of_exec (fun _ _ _ _ => rfl) fun x y => min_eq_ite_lt Nat.not_lt x y,
    two_of_exec (fun _ _ _ _ => rfl) fun x y => max_eq_ite_lt (toNat_le_iff x y),
    two_of_exec (fun _ _ _ _ => rfl) fun _ _ => truth_eq_bit beq_iff_eq,
    two_of_exec (fun _ _ _ _ => rfl) fun _ _ => truth_eq_bit bne_iff_ne,
    two_of_exec (fun _ _ _ _ => rfl) fun _ _ => truth_eq_bit BitVec.slt_iff_toInt_lt,
    two_of_exec (fun _ _ _ _ => rfl) fun _ _ => truth_eq_bit BitVec.ult_iff_toNat_lt,
    two_of_exec (fun _ _ _ _ => rfl) fun _ _ => truth_eq_bit BitVec.sle_iff_toInt_le,
    two_of_exec (fun _ _ _ _ => rfl) fun _ _ => truth_eq_bit BitVec.ule_iff_toNat_le,
    two_of_exec (fun _ _ _ _ => rfl) fun _ _ => rfl⟩

/-- Settles O9: the model's quotients and remainders are those of bit vectors, off the divisor 0. -/
theorem divisionResults : Obligations.DivisionResults := by
  unfold Obligations.DivisionResults
  exact ⟨later_of_exec (fun _ _ _ _ => rfl) divS_eq_sdiv, later_of_exec (fun _ _ _ _ => rfl) divU_eq_udiv,
    later_of_exec (fun _ _ _ _ => rfl) remS_eq_srem, later_of_exec (fun _ _ _ _ => rfl) remU_eq_umod⟩

/-! ### One-source instructions -/

theorem eq_clz (h : s = 0 ∧ v = 64 ∨
    ∃ n < 64, s.getLsbD (63 - n) = true ∧ (∀ k < n, s.getLsbD (63 - k) = false) ∧ v = BitVec.ofNat 64 n) :
    v = word (clzFrom s 64) := by
  rcases h with ⟨rfl, rfl⟩ | ⟨n, hn, hset, hclear, rfl⟩
  · rw [clzFrom_zero]
    rfl
  · have hcount := clzFrom_of_highest hset n fun j hj hjn => by
      simpa [show 63 - (63 - j) = j by omega] using hclear (63 - j) (by omega)
    rw [show 63 - n + 1 + n = 64 by omega] at hcount
    rw [hcount]

theorem eq_ctz (h : s = 0 ∧ v = 64 ∨
    ∃ n < 64, s.getLsbD n = true ∧ (∀ k < n, s.getLsbD k = false) ∧ v = BitVec.ofNat 64 n) : v = word (ctzFrom s 64 0) := by
  rcases h with ⟨rfl, rfl⟩ | ⟨n, hn, hset, hclear, rfl⟩
  · rw [ctzFrom_zero]
    rfl
  · have hcount := ctzFrom_of_lowest (k := 0) (63 - n) (by rwa [Nat.zero_add]) fun j hj => by rw [Nat.zero_add, hclear j hj]
    rw [show n + 1 + (63 - n) = 64 by omega] at hcount
    rw [hcount]

theorem eq_brev (h : ∀ k < 64, v.getLsbD k = s.getLsbD (63 - k)) : v = word (brevFrom s 64) :=
  BitVec.eq_of_getLsbD_eq fun k hk => (h k hk).trans (getLsbD_brev s hk).symm

/-- R194: a signed comparison with a constant is one with its value. -/
theorem slt_signExtend_iff (s : Word) (i : BitVec 12) : s.slt (i.signExtend 64) = true ↔ s.toInt < i.toInt := by
  rw [BitVec.slt_iff_toInt_lt, BitVec.toInt_signExtend_of_le (by omega)]

/-- Settles O10: each result has what the statement says of it, which fixes it. -/
theorem oneSourceResults : Obligations.OneSourceResults := by
  unfold Obligations.OneSourceResults
  exact ⟨one_of_exec (fun _ _ _ => rfl) fun _ _ h => eq_clz h,
    one_of_exec (fun _ _ _ => rfl) fun _ _ h => eq_ctz h,
    one_of_exec (fun _ _ _ => rfl) fun s _ h => h.trans (congrArg _ (popcFrom_eq_countP s 64).symm),
    one_of_exec (fun _ _ _ => rfl) fun _ _ h => eq_brev h,
    one_of_exec (fun _ _ _ => rfl) fun _ _ h => eq_bswap64 h,
    one_of_exec (fun _ _ _ => rfl) fun s _ h => h.trans (sextN_toNat s 8).symm,
    one_of_exec (fun _ _ _ => rfl) fun s _ h => h.trans (sextN_toNat s 16).symm,
    one_of_exec (fun _ _ _ => rfl) fun s _ h => h.trans (sextN_toNat s 32).symm,
    one_of_exec (fun _ _ _ => rfl) fun s _ h => h.trans (bitField_zero_eq_setWidth s 7).symm,
    one_of_exec (fun _ _ _ => rfl) fun s _ h => h.trans (bitField_zero_eq_setWidth s 15).symm,
    one_of_exec (fun _ _ _ => rfl) fun s _ h => h.trans (bitField_zero_eq_setWidth s 31).symm,
    fun _ => one_of_exec (fun _ _ _ => rfl) fun _ _ h => h,
    fun _ => one_of_exec (fun _ _ _ => rfl) fun _ _ h => h,
    fun _ => one_of_exec (fun _ _ _ => rfl) fun _ _ h => h,
    fun _ => one_of_exec (fun _ _ _ => rfl) fun _ _ h => h,
    fun i => one_of_exec (fun _ _ _ => rfl) fun s _ h => h.trans (truth_eq_bit (slt_signExtend_iff s i)).symm,
    fun _ => one_of_exec (fun _ _ _ => rfl) fun _ _ h => h.trans (truth_eq_bit BitVec.ult_iff_toNat_lt).symm,
    fun _ => one_of_exec (fun _ _ _ => rfl) fun _ _ h => h,
    fun _ => one_of_exec (fun _ _ _ => rfl) fun _ _ h => h,
    fun _ => one_of_exec (fun _ _ _ => rfl) fun _ _ h => h,
    fun _ => one_of_exec (fun _ _ _ => rfl) fun _ _ h => h,
    fun p w => one_of_exec (fun _ _ _ => rfl) fun s _ h => eq_of_inserted h (bitField_inserted s p.toNat w.toNat)⟩

/-! ### Instructions that read their destination, or nothing -/

/-- Settles O11: what the instructions read and write, in the model's order; the bits of an inserted field fix the result. -/
theorem destinationReaders : Obligations.DestinationReaders := by
  unfold Obligations.DestinationReaders
  refine ⟨?sel, ?movi, ?movh, ?bfi⟩
  case sel =>
    intro d a b s t x y c s1 s2 s3 s4 ⟨ht, hm⟩ hc ha hb hd hw
    rw [← ite_not] at hw
    refine issue_next ht hm ?_
    rw [Act.bind_ok hc, Act.bind_ok ha, Act.bind_ok hb, Act.bind_ok hd, Act.bind_ok hw, Act.pure_ok]
  case movi =>
    intro d i s t s1 ⟨ht, hm⟩ hc hw
    refine issue_next ht hm ?_
    rw [Act.bind_ok hc, Act.bind_ok hw, Act.pure_ok]
  case movh =>
    intro d q v s t c r s1 s2 ⟨ht, hm⟩ hc hd hr hw
    rw [eq_of_inserted hr (insertField_inserted _ _ _ _)] at hw
    refine issue_next ht hm ?_
    rw [Act.bind_ok hc, Act.bind_ok hd, setQuarter, Act.bind_ok hw, Act.pure_ok]
  case bfi =>
    intro d a p w s t x c r s1 s2 s3 ⟨ht, hm⟩ hc ha hd hr hw
    rw [eq_of_inserted hr (insertField_inserted _ _ _ _)] at hw
    refine issue_next ht hm ?_
    rw [Act.bind_ok hc, Act.bind_ok ha, Act.bind_ok hd, Act.bind_ok hw, Act.pure_ok]

/-! ### Branches, jumps and calls -/

theorem sub_one_eq_zero_iff (x : Word) : x - 1 = 0 ↔ x = 1 := by
  refine ⟨fun h => ?_, fun h => by subst h; rfl⟩
  bv_omega

/-- R203: BDNZ leaves the count less 1, and branches while that is not 0. -/
theorem exec_bdnz {d : Reg} {s s1 s2 : State} {t : Thread} {x : Word} (i : BitVec 19) (hi : Issues s t) (hc : Checked [.both d] s)
    (hd : Reads d s x s1) (hw : Writes d (x - 1) s1 s2) :
    exec (.bdnz d i) s = .next (finish s2 (if x - 1 ≠ 0 then .goto (branchTo t.pc i) else .seq)) := by
  obtain ⟨ht, hm⟩ := hi
  refine issue_next ht hm ?_
  rw [Act.bind_ok hc, Act.bind_ok me_ok, self_of ht, Act.bind_ok hd, Act.bind_ok hw, Act.pure_ok]

/-- Settles O12: branches share one shape; jumps and calls go where the statement says, and write the link. -/
theorem branchesAndCalls : Obligations.BranchesAndCalls := by
  unfold Obligations.BranchesAndCalls
  refine ⟨tests_of_exec (fun _ _ _ _ => rfl) fun _ _ => beq_iff_eq, tests_of_exec (fun _ _ _ _ => rfl) fun _ _ => bne_iff_ne,
    tests_of_exec (fun _ _ _ _ => rfl) fun _ _ => BitVec.slt_iff_toInt_lt,
    tests_of_exec (fun _ _ _ _ => rfl) fun _ _ => BitVec.sle_iff_toInt_le,
    tests_of_exec (fun _ _ _ _ => rfl) fun _ _ => BitVec.ult_iff_toNat_lt,
    tests_of_exec (fun _ _ _ _ => rfl) fun _ _ => BitVec.ule_iff_toNat_le, ?jmp, ?call, ?jr, ?callr, ?bdnz⟩
  case jmp =>
    intro i s t ⟨ht, hm⟩
    change execJmp i s = _
    refine issue_next ht hm ?_
    rw [Act.bind_ok me_ok, self_of ht, Act.pure_ok, branchTo]
  case call =>
    intro d i s t s1 ⟨ht, hm⟩ hc hw
    refine issue_next ht hm ?_
    rw [Act.bind_ok hc, Act.bind_ok me_ok, self_of ht, Act.bind_ok hw, branchTo, Act.pure_ok]
  case jr =>
    intro a s t x s1 ⟨ht, hm⟩ hc ha
    refine issue_next ht hm ?_
    rw [Act.bind_ok hc, Act.bind_ok ha, Act.pure_ok]
  case callr =>
    intro d a s t x s1 s2 ⟨ht, hm⟩ hc ha hw
    refine issue_next ht hm ?_
    rw [Act.bind_ok hc, Act.bind_ok me_ok, self_of ht, Act.bind_ok ha, Act.bind_ok hw, Act.pure_ok]
  case bdnz =>
    intro d i s t x s1 s2 hi hc hd hw
    have hrun := exec_bdnz i hi hc hd hw
    refine ⟨fun hx => ?_, fun hx => ?_⟩
    · rw [hrun, if_pos (mt (sub_one_eq_zero_iff x).mp hx), branchTo]
    · rw [hrun, if_neg fun hne => hne ((sub_one_eq_zero_iff x).mpr hx)]

/-! ### The frame of a scalar instruction -/

/-- R182, R183: operands that pass steps 5 and 6 of R158 are waited for while a register that they name is pending. -/
theorem checkOps_pending {s : State} {us : List Use} (hout : us.findSome? (outside (self s)) = none)
    (hspecial : specialTraps (self s) [] us = none) (hbusy : us.any (busyUse (self s)) = true) :
    checkOps us s = .error (.wait .retry (keepNote s)) := by
  rw [checkOps, Act.bind_ok me_ok, hout, hspecial, hbusy]
  rfl

/-- R183: an addition whose operands are waited for leaves its thread waiting. -/
theorem exec_add_pending {s : State} {t : Thread} {d a b : Reg} {f : State → State} (hi : Issues s t)
    (hc : checkOps [.src a, .src b, .dst d] s = .error (.wait .retry f)) : exec (.add d a b) s = .next (waiting (f s) .retry) := by
  obtain ⟨ht, hm⟩ := hi
  exact issue_wait ht hm (Act.bind_error hc)

/-- A thread that awaits a late result for the number of `zr`. -/
def zrAwaiter : Thread := { blank with results := [{ tx := 0, reg := some (127, 0), vec := none }] }

/-- The package after reset, with that thread in slot 0. -/
def zrPending : State := setThr State.reset 0 zrAwaiter

theorem issues_zrPending : Issues zrPending zrAwaiter := ⟨rfl, rfl⟩

theorem nothingWaits_zrPending : NothingWaits zrPending := ⟨rfl, fun _ h => nomatch h⟩

/-- In that state ADD zr, zr, zr waits. -/
theorem exec_add_zrPending : ∃ s, exec (.add 127 127 127) zrPending = .next s ∧
    (thr s 0).map Thread.status = some (.wait .retry) :=
  ⟨_, exec_add_pending issues_zrPending (checkOps_pending rfl rfl rfl), rfl⟩

/-- Refutes O13: it takes every field that names `zr` as plain, whatever the thread awaits. The model's check of pending registers
(R182, R183) asks after the number 127 as after any other, so in a state, which no run reaches, whose thread awaits a late result
for that number, ADD zr, zr, zr waits and its thread is not ready. -/
theorem not_scalarFrame : ¬ Obligations.ScalarFrame := by
  unfold Obligations.ScalarFrame
  rintro ⟨hthree, -⟩
  obtain ⟨s, hwaits, hstatus⟩ := exec_add_zrPending
  have hplain : Plain zrAwaiter 127 := Or.inl rfl
  obtain ⟨s', t', hnext, -, ht', -, hready, -⟩ :=
    hthree .add (by simp) 127 127 127 zrPending zrAwaiter issues_zrPending hplain hplain hplain nothingWaits_zrPending
  obtain rfl : s = s' := Host.Outcome.next.inj (hwaits.symm.trans hnext)
  rw [show thr s 0 = some t' from ht', Option.map_some, hready] at hstatus
  cases hstatus

end Sys2Proof.Proofs.Scalars
end
